-- ==== Sys2Proof/Word.lean ====
section
/-! DEFINITION. The 16-bit word: every register, memory cell, bus value and address of the block (R6, R9). -/

namespace Sys2Proof

/-- A 16-bit bit pattern; sums on it are mod 65536 (R9, R11). -/
abbrev Word := BitVec 16

end Sys2Proof
end

