-- ==== Sys2Proof/Syntax.lean ====
section
/-! DEFINITION. Register names, the closed opcode enumeration, the instructions and the decoded record of a step. -/

namespace Sys2Proof

/-- The eight general registers (R20). -/
inductive Reg where
  | r0 | r1 | r2 | r3 | r4 | r5 | r6 | r7
  deriving DecidableEq, Repr

/-- The closed enumeration of the sixteen opcodes (R95, R139). -/
inductive Opcode where
  | br | add | ld | st | jsr | and | ldr | str | rti | not | ldi | sti | jmp | reserved | lea | trap
  deriving DecidableEq, Repr

/-- One constructor per row of spec/opcode_table.json. Immediates and offsets are the raw fields; the bits that no decode
check looks at (R107, R110, R112) are carried, ignored by every meaning, so that encoding gives back the word (log 10). -/
inductive Instr where
  /-- BR, R180; `nzp` is bits 11:9, n the most significant. -/
  | br (nzp : BitVec 3) (offset9 : BitVec 9)
  /-- ADD, register mode, R160. -/
  | addReg (dr sr1 sr2 : Reg)
  /-- ADD, immediate mode, R161. -/
  | addImm (dr sr1 : Reg) (imm5 : BitVec 5)
  /-- LD, R200. -/
  | ld (dr : Reg) (offset9 : BitVec 9)
  /-- ST, R212. -/
  | st (sr : Reg) (offset9 : BitVec 9)
  /-- JSR, R186. -/
  | jsr (offset11 : BitVec 11)
  /-- JSRR, R187; `ignored` is bits 10:9. -/
  | jsrr (ignored : BitVec 2) (base : Reg)
  /-- AND, register mode, R163. -/
  | andReg (dr sr1 sr2 : Reg)
  /-- AND, immediate mode, R164. -/
  | andImm (dr sr1 : Reg) (imm5 : BitVec 5)
  /-- LDR, R206. -/
  | ldr (dr base : Reg) (offset6 : BitVec 6)
  /-- STR, R216. -/
  | str (sr base : Reg) (offset6 : BitVec 6)
  /-- RTI, R232. -/
  | rti
  /-- NOT, R166. -/
  | not (dr sr1 : Reg)
  /-- LDI, R203. -/
  | ldi (dr : Reg) (offset9 : BitVec 9)
  /-- STI, R214. -/
  | sti (sr : Reg) (offset9 : BitVec 9)
  /-- JMP, R183; `ignored` is bits 11:9. With base R7 the word is RET's (R184). -/
  | jmp (ignored : BitVec 3) (base : Reg)
  /-- RET, R184; `ignored` is bits 11:9. -/
  | ret (ignored : BitVec 3)
  /-- The reserved opcode 0xD, R236; `payload` is bits 11:0. -/
  | reserved (payload : BitVec 12)
  /-- LEA, R209. -/
  | lea (dr : Reg) (offset9 : BitVec 9)
  /-- TRAP, R230. -/
  | trap (trapvect8 : BitVec 8)
  deriving DecidableEq, Repr

/-- The decoded record a step returns (R144): the fields the source lists, extracted whatever the opcode. -/
structure DecodedRecord where
  address : Word
  raw : Word
  opcode : Opcode
  dr : Reg
  sr1 : Reg
  sr2 : Reg
  immFlag : Bool
  jsrFlag : Bool
  imm5 : Word
  offset6 : Word
  offset9 : Word
  offset11 : Word
  deriving DecidableEq, Repr

end Sys2Proof
end

