-- ==== Sys2Proof/WellFormed.lean ====
section
/-! DEFINITION. Which instruction terms stand for a word of their own row. -/

namespace Sys2Proof

/-- Every field has its own width by its type, so one check is left: a JMP through R7 is the RET row (R184), so the JMP
constructor does not name R7 (log 10). -/
def Instr.wellFormed : Instr → Bool
  | .br _ _ => true
  | .addReg _ _ _ => true
  | .addImm _ _ _ => true
  | .ld _ _ => true
  | .st _ _ => true
  | .jsr _ => true
  | .jsrr _ _ => true
  | .andReg _ _ _ => true
  | .andImm _ _ _ => true
  | .ldr _ _ _ => true
  | .str _ _ _ => true
  | .rti => true
  | .not _ _ => true
  | .ldi _ _ => true
  | .sti _ _ => true
  | .jmp _ base => base != .r7
  | .ret _ => true
  | .reserved _ => true
  | .lea _ _ => true
  | .trap _ => true

end Sys2Proof
end

