-- ==== Sys2Proof/Decode.lean ====
section
/-! DEFINITION. The decoder, total on every word, the decoded record, and the encoder written from the same formats. -/

namespace Sys2Proof

/-- `f` sign-extended to 16 bits (R10). -/
def sext16 {n : Nat} (f : BitVec n) : Word := f.signExtend 16

/-- `f` zero-extended to 16 bits (R10). -/
def zext16 {n : Nat} (f : BitVec n) : Word := f.zeroExtend 16

/-- The register a 3-bit field names (R94). -/
def Reg.ofBits (b : BitVec 3) : Reg :=
  match b.toNat with
  | 0 => .r0
  | 1 => .r1
  | 2 => .r2
  | 3 => .r3
  | 4 => .r4
  | 5 => .r5
  | 6 => .r6
  | _ => .r7

/-- The 3-bit field that names a register (R94). -/
def Reg.toBits : Reg → BitVec 3
  | .r0 => 0
  | .r1 => 1
  | .r2 => 2
  | .r3 => 3
  | .r4 => 4
  | .r5 => 5
  | .r6 => 6
  | .r7 => 7

/-- The opcode map (R95; PRESUMED, log 7). -/
def Opcode.ofBits (b : BitVec 4) : Opcode :=
  match b.toNat with
  | 0x0 => .br
  | 0x1 => .add
  | 0x2 => .ld
  | 0x3 => .st
  | 0x4 => .jsr
  | 0x5 => .and
  | 0x6 => .ldr
  | 0x7 => .str
  | 0x8 => .rti
  | 0x9 => .not
  | 0xA => .ldi
  | 0xB => .sti
  | 0xC => .jmp
  | 0xD => .reserved
  | 0xE => .lea
  | _ => .trap

/-- The opcode's number (R95). -/
def Opcode.toBits : Opcode → BitVec 4
  | .br => 0x0
  | .add => 0x1
  | .ld => 0x2
  | .st => 0x3
  | .jsr => 0x4
  | .and => 0x5
  | .ldr => 0x6
  | .str => 0x7
  | .rti => 0x8
  | .not => 0x9
  | .ldi => 0xA
  | .sti => 0xB
  | .jmp => 0xC
  | .reserved => 0xD
  | .lea => 0xE
  | .trap => 0xF

/-! ### The fields of a word (R91, R92) -/

/-- Bits 15:12. -/
def opcodeOf (w : Word) : Opcode := Opcode.ofBits (w.extractLsb' 12 4)

/-- Bits 11:9 as a register: DR, or the store source SR. -/
def drField (w : Word) : Reg := Reg.ofBits (w.extractLsb' 9 3)

/-- Bits 11:9 as the BR mask n, z, p. -/
def nzpField (w : Word) : BitVec 3 := w.extractLsb' 9 3

/-- Bits 8:6: SR1 or BaseR. -/
def sr1Field (w : Word) : Reg := Reg.ofBits (w.extractLsb' 6 3)

/-- Bits 2:0: SR2. -/
def sr2Field (w : Word) : Reg := Reg.ofBits (w.extractLsb' 0 3)

/-- Bit 5. -/
def immFlagField (w : Word) : Bool := w.getLsbD 5

/-- Bit 11. -/
def jsrFlagField (w : Word) : Bool := w.getLsbD 11

/-- Bits 4:0. -/
def imm5Field (w : Word) : BitVec 5 := w.extractLsb' 0 5

/-- Bits 5:0. -/
def offset6Field (w : Word) : BitVec 6 := w.extractLsb' 0 6

/-- Bits 8:0. -/
def offset9Field (w : Word) : BitVec 9 := w.extractLsb' 0 9

/-- Bits 10:0. -/
def offset11Field (w : Word) : BitVec 11 := w.extractLsb' 0 11

/-- Bits 7:0. -/
def trapvect8Field (w : Word) : BitVec 8 := w.extractLsb' 0 8

/-- The decoded record of the word `raw` at `address`: every field, whatever the opcode (R92, R134, R144). -/
def recordOf (address raw : Word) : DecodedRecord where
  address := address
  raw := raw
  opcode := opcodeOf raw
  dr := drField raw
  sr1 := sr1Field raw
  sr2 := sr2Field raw
  immFlag := immFlagField raw
  jsrFlag := jsrFlagField raw
  imm5 := sext16 (imm5Field raw)
  offset6 := sext16 (offset6Field raw)
  offset9 := sext16 (offset9Field raw)
  offset11 := sext16 (offset11Field raw)

/-- Which reserved-bit check of R135 a word fails. -/
inductive DecodeReject where
  /-- ADD or AND, register mode, bits 4:3 not 00 (R106). -/
  | operateBits
  /-- JSRR, bits 5:0 not zero (R107). -/
  | jsrrBits
  /-- RTI, bits 11:0 not zero (R108). -/
  | rtiBits
  /-- NOT, bits 5:0 not 0x3F (R109). -/
  | notBits
  /-- JMP or RET, bits 5:0 not zero (R110). -/
  | jmpBits
  /-- TRAP, bits 11:8 not zero (R111). -/
  | trapBits
  deriving DecidableEq, Repr

/-- What the decoder makes of a word. -/
inductive Decoded where
  | valid (i : Instr)
  | invalid (why : DecodeReject)
  deriving DecidableEq, Repr

/-- The decoder (R134, R135): every word of a defined opcode either passes its opcode's check or is rejected by the name of
the check. The words of the reserved opcode are read as the row RESERVED, whose meaning is the decode failure (R137; log 9). -/
def decode (w : Word) : Decoded :=
  match opcodeOf w with
  | .br => .valid (.br (nzpField w) (offset9Field w))
  | .add =>
    if immFlagField w then .valid (.addImm (drField w) (sr1Field w) (imm5Field w))
    else if w.extractLsb' 3 2 = 0 then .valid (.addReg (drField w) (sr1Field w) (sr2Field w))
    else .invalid .operateBits
  | .ld => .valid (.ld (drField w) (offset9Field w))
  | .st => .valid (.st (drField w) (offset9Field w))
  | .jsr =>
    if jsrFlagField w then .valid (.jsr (offset11Field w))
    else if offset6Field w = 0 then .valid (.jsrr (w.extractLsb' 9 2) (sr1Field w))
    else .invalid .jsrrBits
  | .and =>
    if immFlagField w then .valid (.andImm (drField w) (sr1Field w) (imm5Field w))
    else if w.extractLsb' 3 2 = 0 then .valid (.andReg (drField w) (sr1Field w) (sr2Field w))
    else .invalid .operateBits
  | .ldr => .valid (.ldr (drField w) (sr1Field w) (offset6Field w))
  | .str => .valid (.str (drField w) (sr1Field w) (offset6Field w))
  | .rti => if w.extractLsb' 0 12 = 0 then .valid .rti else .invalid .rtiBits
  | .not => if offset6Field w = 0x3F then .valid (.not (drField w) (sr1Field w)) else .invalid .notBits
  | .ldi => .valid (.ldi (drField w) (offset9Field w))
  | .sti => .valid (.sti (drField w) (offset9Field w))
  | .jmp =>
    if offset6Field w = 0 then
      if sr1Field w = .r7 then .valid (.ret (w.extractLsb' 9 3))
      else .valid (.jmp (w.extractLsb' 9 3) (sr1Field w))
    else .invalid .jmpBits
  | .reserved => .valid (.reserved (w.extractLsb' 0 12))
  | .lea => .valid (.lea (drField w) (offset9Field w))
  | .trap => if w.extractLsb' 8 4 = 0 then .valid (.trap (trapvect8Field w)) else .invalid .trapBits

/-- The encoder: the one word of an instruction, field by field from the formats of R96 to R104 (PRESUMED, log 7). -/
def encode : Instr → Word
  | .br nzp offset9 => 0b0000#4 ++ nzp ++ offset9
  | .addReg dr sr1 sr2 => 0b0001#4 ++ dr.toBits ++ sr1.toBits ++ 0b000#3 ++ sr2.toBits
  | .addImm dr sr1 imm5 => 0b0001#4 ++ dr.toBits ++ sr1.toBits ++ 0b1#1 ++ imm5
  | .ld dr offset9 => 0b0010#4 ++ dr.toBits ++ offset9
  | .st sr offset9 => 0b0011#4 ++ sr.toBits ++ offset9
  | .jsr offset11 => 0b0100#4 ++ 0b1#1 ++ offset11
  | .jsrr ignored base => 0b0100#4 ++ 0b0#1 ++ ignored ++ base.toBits ++ 0b000000#6
  | .andReg dr sr1 sr2 => 0b0101#4 ++ dr.toBits ++ sr1.toBits ++ 0b000#3 ++ sr2.toBits
  | .andImm dr sr1 imm5 => 0b0101#4 ++ dr.toBits ++ sr1.toBits ++ 0b1#1 ++ imm5
  | .ldr dr base offset6 => 0b0110#4 ++ dr.toBits ++ base.toBits ++ offset6
  | .str sr base offset6 => 0b0111#4 ++ sr.toBits ++ base.toBits ++ offset6
  | .rti => 0b1000#4 ++ 0b000000000000#12
  | .not dr sr1 => 0b1001#4 ++ dr.toBits ++ sr1.toBits ++ 0b111111#6
  | .ldi dr offset9 => 0b1010#4 ++ dr.toBits ++ offset9
  | .sti sr offset9 => 0b1011#4 ++ sr.toBits ++ offset9
  | .jmp ignored base => 0b1100#4 ++ ignored ++ base.toBits ++ 0b000000#6
  | .ret ignored => 0b1100#4 ++ ignored ++ 0b111#3 ++ 0b000000#6
  | .reserved payload => 0b1101#4 ++ payload
  | .lea dr offset9 => 0b1110#4 ++ dr.toBits ++ offset9
  | .trap trapvect8 => 0b1111#4 ++ 0b0000#4 ++ trapvect8

/-- The instruction word whose bits the opcode table numbers `w`: the low `nbits` bits, every bit above them 0. -/
def tableWord (nbits w : Nat) : Word := BitVec.ofNat 16 (w % 2 ^ nbits)

/-- The instruction the decoder reads from a word given in the opcode table's numbering. -/
def decodeTableWord (nbits w : Nat) : Option Instr :=
  match decode (tableWord nbits w) with
  | .valid i => some i
  | .invalid _ => none

end Sys2Proof
end

