-- ==== Sys2Proof/Config.lean ====
section
/-! DEFINITION. The named parameters of the model (R7) and the two constants the spec leaves open, which have no body. -/

namespace Sys2Proof.Config

/-- `RTI_PRIV_CHECK` (R7, R232): what RTI's privilege check reads. -/
inductive PrivCheck where
  /-- Bit 15 of the word at the address in R6. -/
  | stackWord
  /-- Bit 15 of the PSR. -/
  | psrMode
  deriving DecidableEq, Repr

/-- `JSRR_LINK_ORDER` (R7, R187): whether JSRR reads its base register before or after it writes R7. -/
inductive LinkOrder where
  | readBaseFirst
  | linkFirst
  deriving DecidableEq, Repr, Inhabited

/-- `IO_MODE` (R7, R66): whether a core access at a device address reaches the device port or the array. -/
inductive IoMode where
  | device
  | asMemory
  deriving DecidableEq, Repr

/-- The parameters of R7, which the model takes as arguments: `State` carries one `Params`, and no step changes it (R292). -/
structure Params where
  /-- `BR_ZERO_MASK_TAKEN`: whether a BR with mask 000 branches (R181). -/
  brZeroMaskTaken : Bool
  /-- `RTI_PRIV_CHECK` (R232). -/
  rtiPrivCheck : PrivCheck
  /-- `JSRR_LINK_ORDER` (R188). -/
  jsrrLinkOrder : LinkOrder
  /-- `IO_ADDRS` (R66), a set: only membership is ever asked. -/
  ioAddrs : List Word
  /-- `IO_MODE` (R66). -/
  ioMode : IoMode
  deriving DecidableEq, Repr

/-- One transaction on the device port (R37(c), R66). -/
inductive DeviceEvent where
  /-- `DeviceRead(addr)` answered `value`. -/
  | read (addr value : Word)
  /-- `DeviceWrite(addr, value)` was delivered to the platform. -/
  | write (addr value : Word)
  deriving DecidableEq, Repr

/-- FREE VALUE (log 4). What the platform answers to `DeviceRead(addr)` after `draws` earlier reads and the transactions
`log`, newest first: any 16-bit word (R66). It has no body, so nothing can be proved about its value. -/
opaque deviceRead (draws : Nat) (log : List DeviceEvent) (addr : Word) : Word

/-- FREE VALUE (log 3). `JSRR_LINK_ORDER` has no default (R7, R188), so the reset state takes this constant without a body. -/
opaque openLinkOrder : LinkOrder

end Sys2Proof.Config
end

