-- ==== Sys2Proof/Machine/Parameters.lean ====
section
/-! DEFINITION. The default values the spec gives the named parameters (R7). -/

namespace Sys2Proof.Machine

open Sys2Proof.Config

/-- The default `IO_ADDRS`: KBSR, KBDR, DSR, DDR (R7, R66; PRESUMED, log 25). -/
def defaultIoAddrs : List Word := [0xFE00, 0xFE02, 0xFE04, 0xFE06]

/-- The defaults of R7 (the spec's own choices: D5, log 21; D6, log 14; D15, log 25). `JSRR_LINK_ORDER` has none, so it is a
constant without a body (log 3). -/
def defaultParams : Params where
  brZeroMaskTaken := true
  rtiPrivCheck := .stackWord
  jsrrLinkOrder := openLinkOrder
  ioAddrs := defaultIoAddrs
  ioMode := .device

end Sys2Proof.Machine
end

