-- ==== Sys2Proof/Machine/State.lean ====
section
/-! DEFINITION. The machine's state as plain data, the reasons an operation can stop, and the state after reset. -/

namespace Sys2Proof.Machine

open Sys2Proof.Config

/-- The register file (R20): eight 16-bit registers, none hard-wired, one copy for both modes. -/
structure RegFile where
  r0 : Word
  r1 : Word
  r2 : Word
  r3 : Word
  r4 : Word
  r5 : Word
  r6 : Word
  r7 : Word
  deriving DecidableEq, Repr

/-- The memory array (R60): pairs of a word address and the word there, in the canonical form `Memory.wf`. The cell is the
16-bit word because the block has no byte addresses (R61; log 8). -/
abbrev Memory := List (Nat × Word)

/-- The status of a step (R142): OK or one of the error kinds of R250. -/
inductive Status where
  | ok
  /-- A reserved-bit check failed on a defined opcode (R138). -/
  | decodeInvalid
  /-- The word's opcode is 0xD (R236). -/
  | reservedOpcode
  /-- RTI's privilege check failed (R234). -/
  | privilegeViolation
  deriving DecidableEq, Repr

/-- The classification flags a step reports (R143). -/
structure Classification where
  subroutineEntry : Bool
  subroutineReturn : Bool
  deriving DecidableEq, Repr

/-- No flag (R143: every step that is neither a call nor a return, and every faulting step). -/
def Classification.none : Classification := ⟨false, false⟩

/-- JSR, JSRR and TRAP (R143). -/
def Classification.ofCall : Classification := ⟨true, false⟩

/-- JMP through R7, that is RET (R143). -/
def Classification.ofReturn : Classification := ⟨false, true⟩

/-- The two privilege modes (R260). -/
inductive Mode where
  | supervisor
  | user
  deriving DecidableEq, Repr

/-- The machine: the block's registers and memory (R36), the parameters (R7), the outputs of the last step (R142 to R144;
read by nothing; log 2) and the device port (R66; log 4). -/
structure State where
  /-- x[0] to x[7] (R20). -/
  regs : RegFile
  /-- The program counter (R24). -/
  pc : Word
  /-- The instruction register (R27). -/
  ir : Word
  /-- The processor status register (R28). -/
  psr : Word
  /-- The memory address register (R32). -/
  mar : Word
  /-- The memory data register (R33). -/
  mdr : Word
  /-- The bus cell (R34). -/
  bus : Word
  /-- The memory array (R60). -/
  mem : Memory
  /-- The parameters (R7): configuration, changed by no step and not by reset (R292; log 3). -/
  cfg : Params
  /-- MODEL's own: the status the last step returned (R142; log 2). -/
  status : Status
  /-- MODEL's own: the decoded record the last step returned (R144), none before the first step (log 2). -/
  record : Option DecodedRecord
  /-- MODEL's own: the classification flags the last step returned (R143; log 2). -/
  flags : Classification
  /-- MODEL's own: the transactions on the device port, newest first (R66; log 4). -/
  deviceLog : List DeviceEvent
  /-- MODEL's own: how many device reads have been answered, the counter of the free value (log 4). -/
  draws : Nat
  deriving DecidableEq, Repr

/-- The reasons a step stops without a next state: none. A step always ends with a status and a state (R130, R252), and the
three error kinds of R250 leave a state from which the block goes on (R145), so they are values of `Status` (log 1). -/
inductive Fault where
  deriving DecidableEq, Repr

/-- The refusals. -/
inductive Refusal where
  /-- The dispatch has no meaning for this instruction yet. Raised by no arm. Safe. -/
  | notModelled (mnemonic : String)
  /-- The host gave get_register or set_register an index outside 0 to 7 (R150). Raised by those two host operations, by no
  step. Safe: the block might accept what the model refuses (D17). -/
  | registerIndex (index : Nat)
  deriving DecidableEq, Repr

/-- The machine right after reset (R290, R291, R39): every register and cell 0x0000, the PSR 0x0002 (supervisor, Z). The values
are the spec's own choice (D14; log 5); the parameters, outputs and device port are as logs 2, 3 and 4 say. -/
def State.reset : State where
  regs := ⟨0, 0, 0, 0, 0, 0, 0, 0⟩
  pc := 0
  ir := 0
  psr := 0x0002
  mar := 0
  mdr := 0
  bus := 0
  mem := []
  cfg := defaultParams
  status := .ok
  record := Option.none
  flags := Classification.none
  deviceLog := []
  draws := 0

end Sys2Proof.Machine
end

