-- ==== Sys2Proof/Machine/Ops.lean ====
section
/-! DEFINITION. The named operations over registers, bus, memory and the device port; fetch; ending a step, in success or in
one of the three error kinds; the return from an exception. -/

namespace Sys2Proof.Machine

open Sys2Proof.Config

/-! ### The register file (R20) -/

/-- `x[r]`. -/
def RegFile.get (f : RegFile) : Reg → Word
  | .r0 => f.r0
  | .r1 => f.r1
  | .r2 => f.r2
  | .r3 => f.r3
  | .r4 => f.r4
  | .r5 => f.r5
  | .r6 => f.r6
  | .r7 => f.r7

/-- `x[r] <- v`. -/
def RegFile.set (f : RegFile) (r : Reg) (v : Word) : RegFile :=
  match r with
  | .r0 => { f with r0 := v }
  | .r1 => { f with r1 := v }
  | .r2 => { f with r2 := v }
  | .r3 => { f with r3 := v }
  | .r4 => { f with r4 := v }
  | .r5 => { f with r5 := v }
  | .r6 => { f with r6 := v }
  | .r7 => { f with r7 := v }

/-- `x[r]` in a state. -/
def State.reg (s : State) (r : Reg) : Word := s.regs.get r

/-! ### The memory array (R60) -/

/-- What a cell that the list does not hold reads as: the reset contents of every cell (R60, R39). -/
def Memory.unlisted : Word := 0x0000

/-- The canonical form: addresses strictly rising and below 65536, no cell listed that holds the unlisted value. -/
abbrev Memory.wf (m : Memory) : Prop :=
  m.Pairwise (fun x y => x.1 < y.1) ∧ ∀ c ∈ m, c.1 < 65536 ∧ c.2 ≠ Memory.unlisted

/-- The cell numbered `k`. -/
def Memory.lookup : Memory → Nat → Word
  | [], _ => Memory.unlisted
  | (k', v') :: m, k => if k = k' then v' else Memory.lookup m k

/-- The list with a cell put at its place in the rising order. -/
def Memory.insert (k : Nat) (v : Word) : Memory → Memory
  | [] => [(k, v)]
  | (k', v') :: m =>
    if k < k' then (k, v) :: (k', v') :: m
    else if k = k' then (k, v) :: m
    else (k', v') :: Memory.insert k v m

/-- `mem[a]`. -/
def Memory.read (m : Memory) (a : Word) : Word := Memory.lookup m a.toNat

/-- `mem[a] <- v`: a cell that gets the unlisted value leaves the list, so that equal memories are equal lists. -/
def Memory.write (m : Memory) (a v : Word) : Memory :=
  if v = Memory.unlisted then m.filter (fun c => c.1 != a.toNat) else Memory.insert a.toNat v m

/-! ### The bus and the loads from it (R13, R34; DEDUCED, log 11) -/

/-- Gate a value onto the bus. -/
def State.driveBus (s : State) (v : Word) : State := { s with bus := v }

/-- Load a general register from the bus. -/
def State.loadReg (s : State) (r : Reg) : State := { s with regs := s.regs.set r s.bus }

/-- Load the PC from the bus. -/
def State.loadPc (s : State) : State := { s with pc := s.bus }

/-- Load the instruction register from the bus. -/
def State.loadIr (s : State) : State := { s with ir := s.bus }

/-- Load the PSR from the bus. -/
def State.loadPsr (s : State) : State := { s with psr := s.bus }

/-- load-MAR. -/
def State.loadMar (s : State) : State := { s with mar := s.bus }

/-- load-MDR. -/
def State.loadMdr (s : State) : State := { s with mdr := s.bus }

/-- `x[r] <- v`, a bus transfer (R13). -/
def State.writeReg (s : State) (r : Reg) (v : Word) : State := (s.driveBus v).loadReg r

/-- `pc <- v`, a bus transfer (R13). -/
def State.writePc (s : State) (v : Word) : State := (s.driveBus v).loadPc

/-- `psr <- v`, a bus transfer (R13). -/
def State.writePsr (s : State) (v : Word) : State := (s.driveBus v).loadPsr

/-- The fetch increment, which is not a bus transfer (R132). -/
def State.incrementPc (s : State) : State := { s with pc := s.pc + 1 }

/-! ### The memory interface (R62 to R66) -/

/-- Whether a core access at `a` goes to the device port (R66). -/
def State.isDevice (s : State) (a : Word) : Bool := s.cfg.ioMode == .device && s.cfg.ioAddrs.contains a

/-- `mdr <- DeviceRead(mar)`: the platform's answer is a free value (R66; log 4). -/
def State.devicePortRead (s : State) : State :=
  { s with
    mdr := deviceRead s.draws s.deviceLog s.mar
    deviceLog := .read s.mar (deviceRead s.draws s.deviceLog s.mar) :: s.deviceLog
    draws := s.draws + 1 }

/-- `DeviceWrite(mar, mdr)`: delivered to the platform, the array unchanged (R66). -/
def State.devicePortWrite (s : State) : State := { s with deviceLog := .write s.mar s.mdr :: s.deviceLog }

/-- `mdr <- mem[mar]` (R62). -/
def State.arrayRead (s : State) : State := { s with mdr := s.mem.read s.mar }

/-- `mem[mar] <- mdr` (R62). -/
def State.arrayWrite (s : State) : State := { s with mem := s.mem.write s.mar s.mdr }

/-- `memory_enable(write)` (R62, R66). -/
def State.memoryEnable (s : State) (write : Bool) : State :=
  if s.isDevice s.mar then (if write then s.devicePortWrite else s.devicePortRead)
  else (if write then s.arrayWrite else s.arrayRead)

/-- `MemRead(a, 1)` (R63); the word read is on the bus afterwards. -/
def State.memRead (s : State) (a : Word) : State :=
  let s := ((s.driveBus a).loadMar).memoryEnable false
  s.driveBus s.mdr

/-- `MemWrite(a, 1, v)` (R64). -/
def State.memWrite (s : State) (a v : Word) : State :=
  (((s.driveBus a).loadMar).driveBus v).loadMdr.memoryEnable true

/-- The word a core read at `a` gives in state `s`: the platform's answer at a device address, else the cell (R62, R66). -/
def State.loadValue (s : State) (a : Word) : Word :=
  if s.isDevice a then deviceRead s.draws s.deviceLog a else s.mem.read a

/-! ### Fetch and the decoded record (R131 to R134, R144) -/

/-- Fetch (R131): the memory read with the PC increment between the load of mar and the enable. -/
def State.fetch (s : State) : State :=
  let s := (((s.driveBus s.pc).loadMar).incrementPc).memoryEnable false
  (s.driveBus s.mdr).loadIr

/-- `iaddr`, the address of the instruction being executed: after fetch the PC is `iaddr + 1` (R133). -/
def State.iaddr (s : State) : Word := s.pc - 1

/-- Decode fills the decoded record of the step (R134, R144). -/
def State.latchRecord (s : State) : State := { s with record := some (recordOf s.iaddr s.ir) }

/-- What a step does before decode's verdict (R130, R136). -/
def State.beginStep (s : State) : State := s.fetch.latchRecord

/-! ### How a step ends (R142, R143), taking an exception and returning from one -/

/-- The status and the flags the step returns. -/
def State.report (s : State) (e : Status) (f : Classification) : State := { s with status := e, flags := f }

/-- The instruction ran to completion: status OK with the given flags. -/
def State.finish (s : State) (f : Classification) : Host.Outcome State Fault Refusal := .next (s.report .ok f)

/-- TAKING AN EXCEPTION: `raise E` (R15, R255). The block saves nothing, vectors nowhere and changes no mode: the step ends
with the error status and no flag. -/
def State.raise (s : State) (e : Status) : Host.Outcome State Fault Refusal := .next (s.report e Classification.none)

/-- How a decode failure ends the step (R138): the PC goes back to the instruction's address, then the error is raised. -/
def State.decodeFailure (s : State) (e : Status) : Host.Outcome State Fault Refusal := (s.writePc s.iaddr).raise e

/-- RETURN FROM AN EXCEPTION: RTI's pop after its check, `w0` being the word at R6 (R232, R233). -/
def State.popFrame (s : State) (w0 : Word) : State :=
  let s := s.writePc w0
  let s := s.writeReg .r6 (s.reg .r6 + 1)
  let s := s.memRead (s.reg .r6)
  let s := s.writePsr s.bus
  s.writeReg .r6 (s.reg .r6 + 1)

end Sys2Proof.Machine
end

