-- ==== Sys2Proof/Machine/Operands.lean ====
section
/-! DEFINITION. The operand forms and addressing modes (R92, R167, R219). On entry to a meaning the PC is `iaddr + 1` (R16). -/

namespace Sys2Proof.Machine

/-- The second operand of ADD and AND: `x[sr2]`, or imm5 sign-extended (R167). -/
inductive Operand2 where
  | reg (sr2 : Reg)
  | imm (imm5 : BitVec 5)
  deriving DecidableEq, Repr

/-- The value of a second operand (R167, R92). -/
def State.operand2 (s : State) : Operand2 → Word
  | .reg sr2 => s.reg sr2
  | .imm imm5 => sext16 imm5

/-- PC-relative: `pc + offset9` (R219). -/
def State.pcRelative9 (s : State) (offset9 : BitVec 9) : Word := s.pc + sext16 offset9

/-- JSR's target: `pc + offset11` (R186). -/
def State.pcRelative11 (s : State) (offset11 : BitVec 11) : Word := s.pc + sext16 offset11

/-- Base plus offset: `x[base] + offset6` (R219). -/
def State.basePlusOffset (s : State) (base : Reg) (offset6 : BitVec 6) : Word := s.reg base + sext16 offset6

/-- Indirect: read the pointer at the PC-relative address; the pointer is on the bus afterwards (R219). -/
def State.readPointer (s : State) (offset9 : BitVec 9) : State := s.memRead (s.pcRelative9 offset9)

/-- TRAP's vector address: `zext_16(trapvect8)` (R92, R230). -/
def trapVectorAddress (trapvect8 : BitVec 8) : Word := zext16 trapvect8

end Sys2Proof.Machine
end

