-- ==== Sys2Proof/Machine/Flags.lean ====
section
/-! DEFINITION. The PSR's fields, the condition-code logic and the result write every data instruction shares. -/

namespace Sys2Proof.Machine

/-- `cc = psr[2:0]` as N::Z::P (R28; PRESUMED, log 6). -/
def State.cc (s : State) : BitVec 3 := s.psr.extractLsb' 0 3

/-- `mode = psr[15]`: 0 supervisor, 1 user (R28, R31; PRESUMED, log 6). -/
def State.mode (s : State) : Mode := if s.psr.getLsbD 15 then .user else .supervisor

/-- The codes of a result: N by bit 15, else Z for zero, else P (R140). -/
def conditionCodes (v : Word) : BitVec 3 :=
  if v.getLsbD 15 then 0b100#3 else if v = 0 then 0b010#3 else 0b001#3

/-- A PSR with bits 2:0 replaced and bits 15:3 kept. -/
def psrWithCodes (psr : Word) (codes : BitVec 3) : Word := psr.extractLsb' 3 13 ++ codes

/-- `setcc(v)` (R140), the source's logic_NZP; not a bus transfer (R13). -/
def State.setcc (s : State) (v : Word) : State := { s with psr := psrWithCodes s.psr (conditionCodes v) }

/-- `x[dr] <- v; setcc(x[dr])` and the step completes: the end of ADD, AND, NOT, LD, LDI, LDR and LEA (R141). -/
def State.writeResult (s : State) (dr : Reg) (v : Word) : Host.Outcome State Fault Refusal :=
  let s := s.writeReg dr v
  (s.setcc (s.reg dr)).finish Classification.none

/-- Whether a BR with this mask is taken (R180, R181): tested against the three bits the PSR holds, whatever they are (R182;
logs 21 and 23). -/
def State.branchTaken (s : State) (nzp : BitVec 3) : Bool :=
  nzp &&& s.cc != 0 || (nzp == 0 && s.cfg.brZeroMaskTaken)

end Sys2Proof.Machine
end

