-- ==== Sys2Proof/Machine/Control.lean ====
section
/-! DEFINITION. BR, JMP, RET, JSR and JSRR (42_control.md). -/

namespace Sys2Proof.Machine

/-- BR (R180). -/
def execBr (nzp : BitVec 3) (offset9 : BitVec 9) (s : State) : Host.Outcome State Fault Refusal :=
  (if s.branchTaken nzp then s.writePc (s.pcRelative9 offset9) else s).finish Classification.none

/-- `pc <- x[base]`, with the flags of R143: a jump through R7 is a subroutine return (R183, R184). -/
def State.jumpThrough (s : State) (base : Reg) : Host.Outcome State Fault Refusal :=
  (s.writePc (s.reg base)).finish (if base = .r7 then Classification.ofReturn else Classification.none)

/-- JMP (R183). -/
def execJmp (base : Reg) (s : State) : Host.Outcome State Fault Refusal := s.jumpThrough base

/-- RET (R184): JMP through R7. -/
def execRet (s : State) : Host.Outcome State Fault Refusal := s.jumpThrough .r7

/-- `x[7] <- pc`: the return address (R186, R187, R230). -/
def State.link (s : State) : State := s.writeReg .r7 s.pc

/-- JSR (R186): the PC is still `iaddr + 1` when the target is computed. -/
def execJsr (offset11 : BitVec 11) (s : State) : Host.Outcome State Fault Refusal :=
  let s := s.link
  (s.writePc (s.pcRelative11 offset11)).finish Classification.ofCall

/-- JSRR's target (R187, R188): the base register before or after the link is written. Only R7 can tell the two orders apart,
so the parameter is looked at for R7 alone (DEDUCED, log 22). -/
def State.jsrrTarget (s : State) (base : Reg) : Word :=
  if base = .r7 then
    match s.cfg.jsrrLinkOrder with
    | .readBaseFirst => s.reg base
    | .linkFirst => s.link.reg base
  else s.reg base

/-- JSRR (R187). -/
def execJsrr (base : Reg) (s : State) : Host.Outcome State Fault Refusal :=
  (s.link.writePc (s.jsrrTarget base)).finish Classification.ofCall

end Sys2Proof.Machine
end

