-- ==== Sys2Proof/Machine/LoadStore.lean ====
section
/-! DEFINITION. Loads, stores and LEA (43_loadstore.md). -/

namespace Sys2Proof.Machine

/-- `x[dr] <- MemRead(ea, 1); setcc(x[dr])`: the end of LD, LDI and LDR (R200, R203, R206). -/
def State.loadFrom (s : State) (dr : Reg) (ea : Word) : Host.Outcome State Fault Refusal :=
  let s := s.memRead ea
  s.writeResult dr s.bus

/-- `MemWrite(ea, 1, x[sr])`: the end of ST, STI and STR (R212, R214, R216); the condition codes are not changed. -/
def State.storeTo (s : State) (sr : Reg) (ea : Word) : Host.Outcome State Fault Refusal :=
  (s.memWrite ea (s.reg sr)).finish Classification.none

/-- LD (R200). -/
def execLd (dr : Reg) (offset9 : BitVec 9) (s : State) : Host.Outcome State Fault Refusal :=
  s.loadFrom dr (s.pcRelative9 offset9)

/-- LDI (R203): the pointer is read first, then the word it points at. -/
def execLdi (dr : Reg) (offset9 : BitVec 9) (s : State) : Host.Outcome State Fault Refusal :=
  let s := s.readPointer offset9
  s.loadFrom dr s.bus

/-- LDR (R206): the address is computed from the old base. -/
def execLdr (dr base : Reg) (offset6 : BitVec 6) (s : State) : Host.Outcome State Fault Refusal :=
  s.loadFrom dr (s.basePlusOffset base offset6)

/-- LEA (R209, R210): no memory is read; the codes are set from the address. -/
def execLea (dr : Reg) (offset9 : BitVec 9) (s : State) : Host.Outcome State Fault Refusal :=
  s.writeResult dr (s.pcRelative9 offset9)

/-- ST (R212). -/
def execSt (sr : Reg) (offset9 : BitVec 9) (s : State) : Host.Outcome State Fault Refusal :=
  s.storeTo sr (s.pcRelative9 offset9)

/-- STI (R214): the pointer is read before the write. -/
def execSti (sr : Reg) (offset9 : BitVec 9) (s : State) : Host.Outcome State Fault Refusal :=
  let s := s.readPointer offset9
  s.storeTo sr s.bus

/-- STR (R216). -/
def execStr (sr base : Reg) (offset6 : BitVec 6) (s : State) : Host.Outcome State Fault Refusal :=
  s.storeTo sr (s.basePlusOffset base offset6)

end Sys2Proof.Machine
end

