-- ==== Sys2Proof/Machine/Operate.lean ====
section
/-! DEFINITION. ADD, AND and NOT (41_operate.md). -/

namespace Sys2Proof.Machine

/-- ADD's shape, either mode (R160, R161): the sum wraps and records no carry or overflow (R162; log 13). -/
def State.addWith (s : State) (dr sr1 : Reg) (b : Operand2) : Host.Outcome State Fault Refusal :=
  s.writeResult dr (s.reg sr1 + s.operand2 b)

/-- AND's shape, either mode (R163, R164). -/
def State.andWith (s : State) (dr sr1 : Reg) (b : Operand2) : Host.Outcome State Fault Refusal :=
  s.writeResult dr (s.reg sr1 &&& s.operand2 b)

/-- ADD, register mode (R160). -/
def execAddReg (dr sr1 sr2 : Reg) (s : State) : Host.Outcome State Fault Refusal := s.addWith dr sr1 (.reg sr2)

/-- ADD, immediate mode (R161). -/
def execAddImm (dr sr1 : Reg) (imm5 : BitVec 5) (s : State) : Host.Outcome State Fault Refusal :=
  s.addWith dr sr1 (.imm imm5)

/-- AND, register mode (R163). -/
def execAndReg (dr sr1 sr2 : Reg) (s : State) : Host.Outcome State Fault Refusal := s.andWith dr sr1 (.reg sr2)

/-- AND, immediate mode (R164). -/
def execAndImm (dr sr1 : Reg) (imm5 : BitVec 5) (s : State) : Host.Outcome State Fault Refusal :=
  s.andWith dr sr1 (.imm imm5)

/-- NOT (R166). -/
def execNot (dr sr1 : Reg) (s : State) : Host.Outcome State Fault Refusal := s.writeResult dr (~~~(s.reg sr1))

end Sys2Proof.Machine
end

