-- ==== Sys2Proof/Machine/System.lean ====
section
/-! DEFINITION. TRAP, RTI and the reserved opcode (44_system.md). -/

namespace Sys2Proof.Machine

/-- TRAP (R230): the return address goes to R7 and the PC to the word at the vector; no mode, PSR or stack change (R256;
log 15). -/
def execTrap (trapvect8 : BitVec 8) (s : State) : Host.Outcome State Fault Refusal :=
  let s := s.link.memRead (trapVectorAddress trapvect8)
  (s.writePc s.bus).finish Classification.ofCall

/-- RTI (R232): the check selected by `RTI_PRIV_CHECK`, then the pop (R233), or PrivilegeViolation with nothing popped (R234).
With StackWord the check and the pop of the PC use one read (the spec's D6, D8, D9; log 14). -/
def execRti (s : State) : Host.Outcome State Fault Refusal :=
  match s.cfg.rtiPrivCheck with
  | .stackWord =>
    let s := s.memRead (s.reg .r6)
    if s.bus.getLsbD 15 then s.raise .privilegeViolation else (s.popFrame s.bus).finish Classification.none
  | .psrMode =>
    if s.psr.getLsbD 15 then s.raise .privilegeViolation
    else
      let s := s.memRead (s.reg .r6)
      (s.popFrame s.bus).finish Classification.none

/-- The reserved opcode 0xD (R112, R137, R236): always the decode failure ReservedOpcode (log 9). -/
def execReserved (s : State) : Host.Outcome State Fault Refusal := s.decodeFailure .reservedOpcode

end Sys2Proof.Machine
end

