-- ==== Sys2Proof/Machine/Step.lean ====
section
/-! DEFINITION. The step (R130), and the placing of an instruction word where the step fetches it. -/

namespace Sys2Proof.Machine

/-- One instruction cycle (R130): fetch, decode, then execute, or the decode failure of an invalid word (R138). -/
def step (s : State) : Host.Outcome State Fault Refusal :=
  match decode s.beginStep.ir with
  | .valid i => exec i s.beginStep
  | .invalid _ => s.beginStep.decodeFailure .decodeInvalid

/-- The state with an instruction word, in the opcode table's numbering, placed where the next step fetches: in the cell at the
PC. At a device address under IO_MODE = Device a fetch would read the platform instead, so there IO_MODE is set to AsMemory
(log 12). -/
def State.withFetchWord (s : State) (nbits w : Nat) : State :=
  { s with
    mem := s.mem.write s.pc (tableWord nbits w)
    cfg := if s.isDevice s.pc then { s.cfg with ioMode := .asMemory } else s.cfg }

end Sys2Proof.Machine
end

