-- ==== Sys2Proof/Machine/HostOps.lean ====
section
/-! DEFINITION. The host operations (R37(a), R145 to R151, R290): each one atomic transaction between steps (R38). -/

namespace Sys2Proof.Machine

/-- `reset()` (R290). It changes neither the parameters nor the platform behind the device port (R292;
log 16). -/
def hostReset (s : State) : State :=
  { State.reset with cfg := s.cfg, deviceLog := s.deviceLog, draws := s.draws }

/-- `get_PC()` (R150). -/
def hostGetPc (s : State) : Word := s.pc

/-- `set_PC(v)` (R150). -/
def hostSetPc (v : Word) (s : State) : State := { s with pc := v }

/-- The register a host index names, none outside 0 to 7 (R150; log 18). -/
def hostReg : Nat → Option Reg
  | 0 => some .r0
  | 1 => some .r1
  | 2 => some .r2
  | 3 => some .r3
  | 4 => some .r4
  | 5 => some .r5
  | 6 => some .r6
  | 7 => some .r7
  | _ => none

/-- `get_register(i)` (R150): none when the index is refused. -/
def hostGetRegister (i : Nat) (s : State) : Option Word := (hostReg i).map s.reg

/-- `set_register(i, v)` (R150): no bus transfer, no condition codes. -/
def hostSetRegister (i : Nat) (v : Word) (s : State) : Host.Outcome State Fault Refusal :=
  match hostReg i with
  | some r => .next { s with regs := s.regs.set r v }
  | none => .refused (.registerIndex i)

/-- `get_condition_code()` (R149). -/
def hostGetConditionCode (s : State) : BitVec 3 := s.cc

/-- `get_mode()` (R149). -/
def hostGetMode (s : State) : Mode := s.mode

/-- `mem_read(a)` (R151): the array itself, also at a device address (log 18). -/
def hostMemRead (a : Word) (s : State) : Word := s.mem.read a

/-- `mem_write(a, v)` (R151): the array itself, without mar, mdr, bus or the device port. -/
def hostMemWrite (a v : Word) (s : State) : State := { s with mem := s.mem.write a v }

/-- The number of a status (R142; log 20). -/
def Status.code : Status → Nat
  | .ok => 0
  | .decodeInvalid => 1
  | .reservedOpcode => 2
  | .privilegeViolation => 3

end Sys2Proof.Machine
end

