-- ==== Sys2Proof/Safety.lean ====
section
/-! DEFINITION. The terms claims are made in: what an operation keeps and writes, the invariant, and what a run is. -/

namespace Sys2Proof.Machine

open Sys2Proof.Config

/-! ### What is kept -/

/-- Every general register but `d` keeps its value. -/
def RegsKeptBut (d : Reg) (s t : State) : Prop := ∀ r, r ≠ d → t.reg r = s.reg r

/-- Every general register keeps its value. -/
def RegsKept (s t : State) : Prop := ∀ r, t.reg r = s.reg r

/-- Every cell of memory reads as before. -/
def MemoryKept (s t : State) : Prop := ∀ a, t.mem.read a = s.mem.read a

/-- Nothing went over the device port. -/
def PortKept (s t : State) : Prop := t.deviceLog = s.deviceLog ∧ t.draws = s.draws

/-- What no execute phase writes: the instruction register, the decoded record and the parameters. -/
def CycleKept (s t : State) : Prop := t.ir = s.ir ∧ t.record = s.record ∧ t.cfg = s.cfg

/-- No memory access was made: mar and mdr keep their values, memory and the device port are untouched. -/
def NoAccess (s t : State) : Prop := t.mar = s.mar ∧ t.mdr = s.mdr ∧ MemoryKept s t ∧ PortKept s t

/-! ### What is written -/

/-- The condition codes are those of `v` (N its bit 15, Z whether it is zero, P neither) and PSR bits 15:3 are kept (R140). -/
def CodesOf (v : Word) (s t : State) : Prop :=
  t.psr.getLsbD 2 = v.getLsbD 15 ∧ t.psr.getLsbD 1 = decide (v = 0) ∧
    t.psr.getLsbD 0 = (!v.getLsbD 15 && !decide (v = 0)) ∧ ∀ k, 3 ≤ k → t.psr.getLsbD k = s.psr.getLsbD k

/-- An instruction that produces `v` into `dr`: that register and the codes of `v` are written, `v` is the last value on the
bus, every other register, PSR bits 15:3, the PC and what no execute phase writes are kept, and the status is OK. -/
def ProducesResult (dr : Reg) (v : Word) (s t : State) : Prop :=
  t.reg dr = v ∧ RegsKeptBut dr s t ∧ CodesOf v s t ∧ t.bus = v ∧ t.pc = s.pc ∧ CycleKept s t ∧ t.status = .ok

/-- The device port's part of one core read at `a` that gave `v`: one transaction at a device address, none elsewhere. -/
def PortAfterRead (a v : Word) (s t : State) : Prop :=
  if s.isDevice a then t.deviceLog = .read a v :: s.deviceLog ∧ t.draws = s.draws + 1 else PortKept s t

/-- One core store of `v` at `a`: at an ordinary address the cell holds `v` and every other cell reads as before; at a device
address `v` is delivered to the platform and every cell reads as before (R62, R66). -/
def Stores (a v : Word) (s t : State) : Prop :=
  (∀ b, t.mem.read b = if b = a ∧ s.isDevice a = false then v else s.mem.read b) ∧
    t.deviceLog = (if s.isDevice a then .write a v :: s.deviceLog else s.deviceLog) ∧ t.draws = s.draws

/-- A storing instruction: `v` is stored at `a` through mar and mdr, every register, the PSR, the PC and what no execute phase
writes are kept, and the status is OK. -/
def StoresOnly (a v : Word) (s t : State) : Prop :=
  t.mar = a ∧ t.mdr = v ∧ t.bus = v ∧ RegsKept s t ∧ t.psr = s.psr ∧ t.pc = s.pc ∧ CycleKept s t ∧
    t.status = .ok

/-- A control transfer: besides the PC and the bus nothing changes, no access is made, and the status is OK. -/
def OnlyPcMoves (s t : State) : Prop :=
  RegsKept s t ∧ t.psr = s.psr ∧ NoAccess s t ∧ CycleKept s t ∧ t.status = .ok

/-- A call: R7 gets the return address (the PC on entry, `iaddr + 1`), every other register, the PSR, memory and what no
execute phase writes are kept, and the status is OK. -/
def Links (s t : State) : Prop :=
  t.reg .r7 = s.pc ∧ RegsKeptBut .r7 s t ∧ t.psr = s.psr ∧ MemoryKept s t ∧ CycleKept s t ∧ t.status = .ok

/-- An error kind ends a step: the status is `e`, no flag is reported, every register, the PSR, memory and the parameters are
kept (R138, R234, R255). -/
def FaultsKeeping (e : Status) (s t : State) : Prop :=
  t.status = e ∧ t.flags = Classification.none ∧ RegsKept s t ∧ t.psr = s.psr ∧ MemoryKept s t ∧ t.cfg = s.cfg

/-! ### Which instruction writes what -/

/-- The registers an instruction may write (R21). -/
def writesReg (i : Instr) (r : Reg) : Prop :=
  match i with
  | .addReg dr _ _ => r = dr
  | .addImm dr _ _ => r = dr
  | .andReg dr _ _ => r = dr
  | .andImm dr _ _ => r = dr
  | .not dr _ => r = dr
  | .ld dr _ => r = dr
  | .ldi dr _ => r = dr
  | .ldr dr _ _ => r = dr
  | .lea dr _ => r = dr
  | .jsr _ => r = .r7
  | .jsrr _ _ => r = .r7
  | .trap _ => r = .r7
  | .rti => r = .r6
  | .br _ _ => False
  | .jmp _ _ => False
  | .ret _ => False
  | .st _ _ => False
  | .sti _ _ => False
  | .str _ _ _ => False
  | .reserved _ => False

/-- The destination register of the instructions that set the condition codes (R141). -/
def resultReg : Instr → Option Reg
  | .addReg dr _ _ => some dr
  | .addImm dr _ _ => some dr
  | .andReg dr _ _ => some dr
  | .andImm dr _ _ => some dr
  | .not dr _ => some dr
  | .ld dr _ => some dr
  | .ldi dr _ => some dr
  | .ldr dr _ _ => some dr
  | .lea dr _ => some dr
  | .jsr _ => none
  | .jsrr _ _ => none
  | .trap _ => none
  | .rti => none
  | .br _ _ => none
  | .jmp _ _ => none
  | .ret _ => none
  | .st _ _ => none
  | .sti _ _ => none
  | .str _ _ _ => none
  | .reserved _ => none

/-- Whether an instruction may write the PC in execute (R25; the reserved opcode by its decode failure). -/
def writesPc : Instr → Bool
  | .br _ _ => true
  | .jmp _ _ => true
  | .ret _ => true
  | .jsr _ => true
  | .jsrr _ _ => true
  | .trap _ => true
  | .rti => true
  | .reserved _ => true
  | .addReg _ _ _ => false
  | .addImm _ _ _ => false
  | .andReg _ _ _ => false
  | .andImm _ _ _ => false
  | .not _ _ => false
  | .ld _ _ => false
  | .ldi _ _ => false
  | .ldr _ _ _ => false
  | .lea _ _ => false
  | .st _ _ => false
  | .sti _ _ => false
  | .str _ _ _ => false

/-- The address and the word of the store an instruction makes, none for an instruction that stores nothing (R70). -/
def storeOf (i : Instr) (s : State) : Option (Word × Word) :=
  match i with
  | .st sr offset9 => some (s.pcRelative9 offset9, s.reg sr)
  | .sti sr offset9 => some (s.loadValue (s.pcRelative9 offset9), s.reg sr)
  | .str sr base offset6 => some (s.basePlusOffset base offset6, s.reg sr)
  | .br _ _ => none
  | .addReg _ _ _ => none
  | .addImm _ _ _ => none
  | .ld _ _ => none
  | .jsr _ => none
  | .jsrr _ _ => none
  | .andReg _ _ _ => none
  | .andImm _ _ _ => none
  | .ldr _ _ _ => none
  | .rti => none
  | .not _ _ => none
  | .ldi _ _ => none
  | .jmp _ _ => none
  | .ret _ => none
  | .reserved _ => none
  | .lea _ _ => none
  | .trap _ => none

/-- Whether RTI's privilege check passes (R232). -/
def rtiAllowed (s : State) : Bool :=
  match s.cfg.rtiPrivCheck with
  | .stackWord => !(s.loadValue (s.reg .r6)).getLsbD 15
  | .psrMode => !s.psr.getLsbD 15

/-! ### The invariant -/

/-- A transaction is a device read. -/
def isReadEvent : DeviceEvent → Bool
  | .read _ _ => true
  | .write _ _ => false

/-- The address of a transaction. -/
def eventAddress : DeviceEvent → Word
  | .read a _ => a
  | .write a _ => a

/-- What every step and every host operation keeps: memory is in its canonical form; the device port was used only under
IO_MODE = Device and only at device addresses, and the draw counter counts its reads; the decoded record is the record of the
word in the instruction register; and no step reports both flags, or a flag with an error. -/
structure State.Inv (s : State) : Prop where
  memory : s.mem.wf
  port : ∀ e ∈ s.deviceLog, s.cfg.ioMode = .device ∧ eventAddress e ∈ s.cfg.ioAddrs
  draws : s.draws = (s.deviceLog.filter isReadEvent).length
  record : ∀ r, s.record = some r → r = recordOf r.address s.ir
  flags : ¬(s.flags.subroutineEntry = true ∧ s.flags.subroutineReturn = true)
  faultFlags : s.status ≠ .ok → s.flags = Classification.none

/-- Exactly one of N, Z and P is set (R30). -/
def State.oneHotCodes (s : State) : Prop := s.cc = 0b100#3 ∨ s.cc = 0b010#3 ∨ s.cc = 0b001#3

/-! ### Runs -/

/-- A safe step: it answers a next state with status OK (R142). -/
def SafeStep (s t : State) : Prop := step s = .next t ∧ t.status = .ok

/-- The driver's run (R148): at most `k` steps, ending at the first whose status is not OK. -/
def driverRun : Nat → State → Host.Outcome State Fault Refusal
  | 0, s => .next s
  | k + 1, s =>
    match step s with
    | .next t => if t.status = .ok then driverRun k t else .next t
    | .fault r => .fault r
    | .refused r => .refused r

end Sys2Proof.Machine
end

