-- ==== Sys2Proof/Certificates/Slice0/Obligations.lean ====
section
/-! DEFINITION. The statements for the provers: def Obligations.<Name> : Prop, listed in OBLIGATIONS.json. -/

open Sys2Proof Sys2Proof.Machine Sys2Proof.Config

/-! ### Encoding -/

/-- 30_encoding.md, the formats R96 to R104: decoding the word of a well-formed instruction gives the instruction back, with
every operand at every value (opcode numbers and positions are the spec's D3). -/
def Obligations.DecodeOfEncodeIsTheInstruction : Prop :=
  ∀ i : Instr, i.wellFormed = true → decode (encode i) = .valid i

/-- 30_encoding.md: every word the decoder accepts is the word of the instruction it reads, so no bit of a word is lost. -/
def Obligations.EncodeOfDecodeIsTheWord : Prop :=
  ∀ (w : Word) (i : Instr), decode w = .valid i → i.wellFormed = true ∧ encode i = w

/-- 30_encoding.md, Validity (R105 to R113) and 40_cycle.md, Decode (R135): `decode` rejects exactly the words listed. R135 and
R112 make the words of opcode 0xD invalid too; that `decode` reads them as the row RESERVED, whose meaning is their decode
failure, is the model's choice, log 9. -/
def Obligations.DecoderRejectsExactlyTheInvalidWords : Prop :=
  ∀ w : Word,
    ((∃ why, decode w = .invalid why) ↔
      ((w.toNat / 4096 = 0x1 ∨ w.toNat / 4096 = 0x5) ∧ w.getLsbD 5 = false ∧
          (w.getLsbD 4 = true ∨ w.getLsbD 3 = true)) ∨
        (w.toNat / 4096 = 0x4 ∧ w.getLsbD 11 = false ∧ w.toNat % 64 ≠ 0) ∨
        (w.toNat / 4096 = 0x8 ∧ w.toNat % 4096 ≠ 0) ∨
        (w.toNat / 4096 = 0x9 ∧ w.toNat % 64 ≠ 0x3F) ∨
        (w.toNat / 4096 = 0xC ∧ w.toNat % 64 ≠ 0) ∨
        (w.toNat / 4096 = 0xF ∧ w.toNat / 256 ≠ 0xF0)) ∧
      ((∃ payload, decode w = .valid (.reserved payload)) ↔ w.toNat / 4096 = 0xD)

/-- 30_encoding.md and 95_test_vectors.md: one written-out word per family decodes to the instruction it stands for. -/
def Obligations.WrittenOutWordsDecode : Prop :=
  decode 0x1401 = .valid (.addReg .r2 .r0 .r1) ∧ decode 0x127F = .valid (.addImm .r1 .r1 0x1F) ∧
    decode 0x91FF = .valid (.not .r0 .r7) ∧ decode 0x05FD = .valid (.br 0b010 0x1FD) ∧
    decode 0xCE80 = .valid (.jmp 0b111 .r2) ∧ decode 0xCFC0 = .valid (.ret 0b111) ∧
    decode 0x46C0 = .valid (.jsrr 0b11 .r3) ∧ decode 0x4C00 = .valid (.jsr 0x400) ∧
    decode 0x673E = .valid (.ldr .r3 .r4 0x3E) ∧ decode 0xB401 = .valid (.sti .r2 0x001) ∧
    decode 0xF025 = .valid (.trap 0x25) ∧ decode 0x8000 = .valid .rti ∧ decode 0x8001 = .invalid .rtiBits

/-- 00_scope.md, Notation (R10): sign extension copies the field's top bit into every higher bit, zero extension puts zeros. -/
def Obligations.FieldExtensionBits : Prop :=
  ∀ (n : Nat) (f : BitVec n), 0 < n → n ≤ 16 → ∀ k, k < 16 →
    (sext16 f).getLsbD k = (if k < n then f.getLsbD k else f.getLsbD (n - 1)) ∧
      (zext16 f).getLsbD k = (if k < n then f.getLsbD k else false)

/-! ### The cycle -/

/-- R131 and R132: the whole of fetch. -/
def Obligations.FetchReadsTheWordAndIncrementsPc : Prop :=
  ∀ s : State,
    s.fetch.mar = s.pc ∧ s.fetch.iaddr = s.pc ∧ s.fetch.pc = s.pc + 1 ∧ s.fetch.mdr = s.loadValue s.pc ∧
      s.fetch.bus = s.loadValue s.pc ∧ s.fetch.ir = s.loadValue s.pc ∧
      (s.isDevice s.pc = false → s.loadValue s.pc = s.mem.read s.pc) ∧
      PortAfterRead s.pc (s.loadValue s.pc) s s.fetch ∧
      s.fetch.regs = s.regs ∧ s.fetch.psr = s.psr ∧ s.fetch.mem = s.mem ∧ s.fetch.cfg = s.cfg

/-- R130: a step fetches, decodes, and runs the decoded instruction on the fetched state, or reports the decode
failure of either kind. -/
def Obligations.StepRunsTheDecodedInstruction : Prop :=
  ∀ s : State,
    (∀ i, decode (s.loadValue s.pc) = .valid i → step s = exec i s.beginStep) ∧
      (∀ why, decode (s.loadValue s.pc) = .invalid why →
        ∃ t, step s = .next t ∧ t.status = .decodeInvalid ∧ t.pc = s.pc) ∧
      (opcodeOf (s.loadValue s.pc) = .reserved →
        ∃ t, step s = .next t ∧ t.status = .reservedOpcode ∧ t.pc = s.pc) ∧
      s.beginStep.pc = s.pc + 1 ∧ s.beginStep.iaddr = s.pc ∧ s.beginStep.ir = s.loadValue s.pc ∧
      s.beginStep.record = some (recordOf s.pc (s.loadValue s.pc)) ∧
      RegsKept s s.beginStep ∧ s.beginStep.psr = s.psr ∧ s.beginStep.mem = s.mem ∧ s.beginStep.cfg = s.cfg ∧
      PortAfterRead s.pc (s.loadValue s.pc) s s.beginStep

/-- 40_cycle.md, Decode (R137, R138; that the fetch is the only access is R70 of 20_memory.md, marked derived there): a decode
failure of either kind is precise. -/
def Obligations.DecodeFailureIsPrecise : Prop :=
  ∀ (s : State) (e : Status),
    (e = .decodeInvalid ∧ ∃ why, decode (s.loadValue s.pc) = .invalid why) ∨
        (e = .reservedOpcode ∧ opcodeOf (s.loadValue s.pc) = .reserved) →
      ∃ t, step s = .next t ∧ FaultsKeeping e s t ∧ t.pc = s.pc ∧ t.ir = s.loadValue s.pc ∧ t.mar = s.pc ∧
        t.mdr = s.loadValue s.pc ∧ t.record = some (recordOf s.pc (s.loadValue s.pc)) ∧
        PortAfterRead s.pc (s.loadValue s.pc) s t

/-- 40_cycle.md, Host operations (R145, the spec's D13): after a decode failure at an ordinary address a further step, with
nothing changed by the host, fails the same way. -/
def Obligations.DecodeFailureRepeats : Prop :=
  ∀ s t : State, step s = .next t → t.status = .decodeInvalid ∨ t.status = .reservedOpcode →
    s.isDevice s.pc = false → ∃ u, step t = .next u ∧ u.status = t.status ∧ u.pc = s.pc

/-- 60_exceptions.md, Error kinds and codes (R250, R252; what RTI's check reads is the spec's D6, log 14; that an error is the
status of a next state is log 1; the numbers are the spec's D12, log 20): every step answers a next state, its status is an
error only for the three causes named, and the code it reports is 0 exactly for OK and 1, 2, 3 for the three error kinds. -/
def Obligations.StepAlwaysAnswersAndFaultsOnlyForItsCause : Prop :=
  ∀ s : State, ∃ t, step s = .next t ∧
    (t.status = .decodeInvalid ↔ ∃ why, decode (s.loadValue s.pc) = .invalid why) ∧
    (t.status = .reservedOpcode ↔ opcodeOf (s.loadValue s.pc) = .reserved) ∧
    (t.status = .privilegeViolation ↔
      decode (s.loadValue s.pc) = .valid .rti ∧ rtiAllowed s.beginStep = false) ∧
    (t.status.code = 0 ↔ t.status = .ok) ∧ (t.status.code = 1 ↔ t.status = .decodeInvalid) ∧
    (t.status.code = 2 ↔ t.status = .reservedOpcode) ∧ (t.status.code = 3 ↔ t.status = .privilegeViolation)

/-- 10_state.md, Memory-interface registers and the bus (R35, marked derived there): what ir, mar, mdr, bus and the outputs of
the last step hold when a step begins cannot affect anything the step leaves. -/
def Obligations.HiddenRegistersCannotMatter : Prop :=
  ∀ (s : State) (ir mar mdr bus : Word) (status : Status) (record : Option DecodedRecord) (flags : Classification),
    step { s with ir := ir, mar := mar, mdr := mdr, bus := bus, status := status, record := record, flags := flags } = step s

/-- 40_cycle.md, The outcome of a step (R144; on a fault the spec's D21): every step returns the record of the fetched word. -/
def Obligations.EveryStepReturnsItsRecord : Prop :=
  ∀ s : State, ∃ t r, step s = .next t ∧ t.record = some r ∧ t.ir = s.loadValue s.pc ∧
    r.address = s.pc ∧ r.raw = s.loadValue s.pc ∧ r.opcode.toBits.toNat = (s.loadValue s.pc).toNat / 4096 ∧
    r.dr.toBits.toNat = (s.loadValue s.pc).toNat / 512 % 8 ∧ r.sr1.toBits.toNat = (s.loadValue s.pc).toNat / 64 % 8 ∧
    r.sr2.toBits.toNat = (s.loadValue s.pc).toNat % 8 ∧ r.immFlag = (s.loadValue s.pc).getLsbD 5 ∧
    r.jsrFlag = (s.loadValue s.pc).getLsbD 11 ∧ r.imm5 = ((s.loadValue s.pc).extractLsb' 0 5).signExtend 16 ∧
    r.offset6 = ((s.loadValue s.pc).extractLsb' 0 6).signExtend 16 ∧
    r.offset9 = ((s.loadValue s.pc).extractLsb' 0 9).signExtend 16 ∧
    r.offset11 = ((s.loadValue s.pc).extractLsb' 0 11).signExtend 16

/-- 40_cycle.md, The outcome of a step (R143, the spec's D20): the two classification flags of every step. -/
def Obligations.EveryStepReportsItsFlags : Prop :=
  ∀ s : State, ∃ t, step s = .next t ∧
    (t.flags.subroutineEntry = true ↔
      (∃ offset11, decode (s.loadValue s.pc) = .valid (.jsr offset11)) ∨
        (∃ ignored base, decode (s.loadValue s.pc) = .valid (.jsrr ignored base)) ∨
        ∃ trapvect8, decode (s.loadValue s.pc) = .valid (.trap trapvect8)) ∧
    (t.flags.subroutineReturn = true ↔ ∃ ignored, decode (s.loadValue s.pc) = .valid (.ret ignored))

/-! ### Condition codes and mode -/

/-- R140: setcc writes the codes of a value into PSR bits 2:0 and nothing else. -/
def Obligations.SetccWritesTheCodes : Prop :=
  ∀ (s : State) (v : Word), CodesOf v s (s.setcc v) ∧ s.setcc v = { s with psr := (s.setcc v).psr } ∧
    (s.setcc v).cc = (if v.toNat ≥ 32768 then 0b100#3 else if v.toNat = 0 then 0b010#3 else 0b001#3)

/-- 40_cycle.md, Condition-code logic (R141, with the decision of 90_conflicts.md C3 for RTI and the reserved opcode) and
10_state.md, Processor status register (R29): exactly ADD, AND, NOT, LD, LDI, LDR and LEA set the codes from the register they
write and keep PSR bits 15:3; a completed RTI loads the PSR; no other instruction writes it. The RTI clause rests on choices:
what its check reads and the single read of the stack word (the spec's D6 and D9, log 14), and that the popped word is loaded
whole with its codes as they are (D26, log 23). -/
def Obligations.CodesAreWrittenOnlyByTheResultInstructions : Prop :=
  ∀ (i : Instr) (s : State), ∃ t, exec i s = .next t ∧
    (∀ dr, resultReg i = some dr → CodesOf (t.reg dr) s t) ∧
    (resultReg i = none → i ≠ .rti → t.psr = s.psr) ∧
    (i = .rti → t.psr = if rtiAllowed s then (s.memRead (s.reg .r6)).loadValue (s.reg .r6 + 1) else s.psr)

/-- 10_state.md, Processor status register (R30; after RTI the spec's D26): every step that does not execute RTI keeps exactly
one of N, Z and P set. -/
def Obligations.OneHotCodesAreKeptByEveryStepButRti : Prop :=
  ∀ s t : State, s.oneHotCodes → decode (s.loadValue s.pc) ≠ .valid .rti → step s = .next t → t.oneHotCodes

/-- 60_exceptions.md, Privilege (R261; the spec's D7 and D11): a step that changes the mode is a completed RTI, and the new mode
is bit 15 of the word it popped. -/
def Obligations.OnlyRtiChangesTheMode : Prop :=
  ∀ s t : State, step s = .next t → t.mode ≠ s.mode →
    s.loadValue s.pc = 0x8000 ∧ t.status = .ok ∧ t.psr = t.mdr ∧ (t.mode = .user ↔ t.mdr.getLsbD 15 = true)

/-- 44_system.md, RTI (R235 case b, marked derived there): under PsrMode no step leaves user mode. -/
def Obligations.UserModeIsNeverLeftUnderPsrMode : Prop :=
  ∀ s t : State, s.cfg.rtiPrivCheck = .psrMode → s.mode = .user → step s = .next t → t.mode = .user

/-! ### Operate instructions -/

/-- R160: ADD, register mode. -/
def Obligations.AddRegisterResult : Prop :=
  (∀ (w : Word) (dr sr1 sr2 : Reg), decode w = .valid (.addReg dr sr1 sr2) ↔
    w = 0b0001#4 ++ dr.toBits ++ sr1.toBits ++ 0b000#3 ++ sr2.toBits) ∧
  (∀ w : Word, w.toNat / 4096 = 0x1 → w.getLsbD 5 = false → w.extractLsb' 3 2 ≠ 0 → decode w = .invalid .operateBits) ∧
  ∀ (dr sr1 sr2 : Reg) (s : State), ∃ t, exec (.addReg dr sr1 sr2) s = .next t ∧
    ProducesResult dr (s.reg sr1 + s.reg sr2) s t ∧ NoAccess s t ∧
    (t.reg dr).toNat = ((s.reg sr1).toNat + (s.reg sr2).toNat) % 65536

/-- R161: ADD, immediate mode. -/
def Obligations.AddImmediateResult : Prop :=
  (∀ (w : Word) (dr sr1 : Reg) (imm5 : BitVec 5), decode w = .valid (.addImm dr sr1 imm5) ↔
    w = 0b0001#4 ++ dr.toBits ++ sr1.toBits ++ 0b1#1 ++ imm5) ∧
  ∀ (dr sr1 : Reg) (imm5 : BitVec 5) (s : State), ∃ t, exec (.addImm dr sr1 imm5) s = .next t ∧
    ProducesResult dr (s.reg sr1 + imm5.signExtend 16) s t ∧ NoAccess s t

/-- R163: AND, register mode. -/
def Obligations.AndRegisterResult : Prop :=
  (∀ (w : Word) (dr sr1 sr2 : Reg), decode w = .valid (.andReg dr sr1 sr2) ↔
    w = 0b0101#4 ++ dr.toBits ++ sr1.toBits ++ 0b000#3 ++ sr2.toBits) ∧
  (∀ w : Word, w.toNat / 4096 = 0x5 → w.getLsbD 5 = false → w.extractLsb' 3 2 ≠ 0 → decode w = .invalid .operateBits) ∧
  ∀ (dr sr1 sr2 : Reg) (s : State), ∃ t, exec (.andReg dr sr1 sr2) s = .next t ∧
    ProducesResult dr (s.reg sr1 &&& s.reg sr2) s t ∧ NoAccess s t

/-- R164: AND, immediate mode. -/
def Obligations.AndImmediateResult : Prop :=
  (∀ (w : Word) (dr sr1 : Reg) (imm5 : BitVec 5), decode w = .valid (.andImm dr sr1 imm5) ↔
    w = 0b0101#4 ++ dr.toBits ++ sr1.toBits ++ 0b1#1 ++ imm5) ∧
  ∀ (dr sr1 : Reg) (imm5 : BitVec 5) (s : State), ∃ t, exec (.andImm dr sr1 imm5) s = .next t ∧
    ProducesResult dr (s.reg sr1 &&& imm5.signExtend 16) s t ∧ NoAccess s t

/-- R166: NOT. -/
def Obligations.NotResult : Prop :=
  (∀ (w : Word) (dr sr1 : Reg), decode w = .valid (.not dr sr1) ↔
    w = 0b1001#4 ++ dr.toBits ++ sr1.toBits ++ 0b111111#6) ∧
  (∀ w : Word, w.toNat / 4096 = 0x9 → w.toNat % 64 ≠ 0x3F → decode w = .invalid .notBits) ∧
  ∀ (dr sr1 : Reg) (s : State), ∃ t, exec (.not dr sr1) s = .next t ∧
    ProducesResult dr (~~~(s.reg sr1)) s t ∧ NoAccess s t

/-! ### Control transfer -/

/-- 42_control.md, BR (R180's pseudocode and R182): the mask is tested bit by bit against the codes the PSR holds; the mask 000
is taken as the parameter says (R181, the spec's D5). -/
def Obligations.BranchTarget : Prop :=
  (∀ (w : Word) (nzp : BitVec 3) (offset9 : BitVec 9), decode w = .valid (.br nzp offset9) ↔
    w = 0b0000#4 ++ nzp ++ offset9) ∧
  ∀ (nzp : BitVec 3) (offset9 : BitVec 9) (s : State), ∃ t, exec (.br nzp offset9) s = .next t ∧ OnlyPcMoves s t ∧
    (((nzp.getLsbD 2 = true ∧ s.psr.getLsbD 2 = true) ∨ (nzp.getLsbD 1 = true ∧ s.psr.getLsbD 1 = true) ∨
        (nzp.getLsbD 0 = true ∧ s.psr.getLsbD 0 = true) ∨ (nzp = 0 ∧ s.cfg.brZeroMaskTaken = true)) →
      t.pc = s.pc + offset9.signExtend 16) ∧
    (¬((nzp.getLsbD 2 = true ∧ s.psr.getLsbD 2 = true) ∨ (nzp.getLsbD 1 = true ∧ s.psr.getLsbD 1 = true) ∨
        (nzp.getLsbD 0 = true ∧ s.psr.getLsbD 0 = true) ∨ (nzp = 0 ∧ s.cfg.brZeroMaskTaken = true)) → t.pc = s.pc)

/-- R183: JMP, through any register. -/
def Obligations.JumpTarget : Prop :=
  (∀ (w : Word) (ignored : BitVec 3) (base : Reg), base ≠ .r7 → (decode w = .valid (.jmp ignored base) ↔
    w = 0b1100#4 ++ ignored ++ base.toBits ++ 0b000000#6)) ∧
  (∀ w : Word, w.toNat / 4096 = 0xC → w.toNat % 64 ≠ 0 → decode w = .invalid .jmpBits) ∧
  ∀ (ignored : BitVec 3) (base : Reg) (s : State), ∃ t, exec (.jmp ignored base) s = .next t ∧
    OnlyPcMoves s t ∧ t.pc = s.reg base

/-- R184: RET is JMP through R7 and reports a subroutine return. -/
def Obligations.ReturnTarget : Prop :=
  (∀ (w : Word) (ignored : BitVec 3), decode w = .valid (.ret ignored) ↔
    w = 0b1100#4 ++ ignored ++ 0b111#3 ++ 0b000000#6) ∧
  ∀ (ignored : BitVec 3) (s : State), exec (.ret ignored) s = exec (.jmp ignored .r7) s ∧
    ∃ t, exec (.ret ignored) s = .next t ∧ OnlyPcMoves s t ∧ t.pc = s.reg .r7 ∧ t.flags = ⟨false, true⟩

/-- R186: JSR. -/
def Obligations.JsrLinksAndJumps : Prop :=
  (∀ (w : Word) (offset11 : BitVec 11), decode w = .valid (.jsr offset11) ↔ w = 0b0100#4 ++ 0b1#1 ++ offset11) ∧
  ∀ (offset11 : BitVec 11) (s : State), ∃ t, exec (.jsr offset11) s = .next t ∧ Links s t ∧ NoAccess s t ∧
    t.pc = s.pc + offset11.signExtend 16

/-- R187: JSRR, for either value of `JSRR_LINK_ORDER`. -/
def Obligations.JsrrLinksAndJumps : Prop :=
  (∀ (w : Word) (ignored : BitVec 2) (base : Reg), decode w = .valid (.jsrr ignored base) ↔
    w = 0b0100#4 ++ 0b0#1 ++ ignored ++ base.toBits ++ 0b000000#6) ∧
  (∀ w : Word, w.toNat / 4096 = 0x4 → w.getLsbD 11 = false → w.toNat % 64 ≠ 0 → decode w = .invalid .jsrrBits) ∧
  ∀ (ignored : BitVec 2) (base : Reg) (s : State), ∃ t, exec (.jsrr ignored base) s = .next t ∧ Links s t ∧ NoAccess s t ∧
    t.pc = (match s.cfg.jsrrLinkOrder with
      | .readBaseFirst => s.reg base
      | .linkFirst => if base = .r7 then s.pc else s.reg base)

/-- 42_control.md, JMP and RET (R185, marked derived there): a RET after a JSR, JSRR or TRAP, with R7 untouched in between, goes
to the instruction after the call (the PC the call began its execute phase with). -/
def Obligations.ReturnComesBackAfterTheCall : Prop :=
  ∀ (call : Instr) (s t u : State) (ignored : BitVec 3),
    ((∃ offset11, call = .jsr offset11) ∨ (∃ x base, call = .jsrr x base) ∨ ∃ trapvect8, call = .trap trapvect8) →
      exec call s = .next t → u.reg .r7 = t.reg .r7 →
        ∃ v, exec (.ret ignored) u = .next v ∧ v.pc = s.pc

/-! ### Loads, stores and LEA -/

/-- R200: LD. -/
def Obligations.LdResult : Prop :=
  (∀ (w : Word) (dr : Reg) (offset9 : BitVec 9), decode w = .valid (.ld dr offset9) ↔
    w = 0b0010#4 ++ dr.toBits ++ offset9) ∧
  ∀ (dr : Reg) (offset9 : BitVec 9) (s : State) (ea v : Word), ea = s.pc + offset9.signExtend 16 → v = s.loadValue ea →
    ∃ t, exec (.ld dr offset9) s = .next t ∧ ProducesResult dr v s t ∧ t.mar = ea ∧ t.mdr = v ∧ MemoryKept s t ∧
      PortAfterRead ea v s t ∧ (s.isDevice ea = false → v = s.mem.read ea)

/-- R203: LDI, the pointer first and then the data. -/
def Obligations.LdiResult : Prop :=
  (∀ (w : Word) (dr : Reg) (offset9 : BitVec 9), decode w = .valid (.ldi dr offset9) ↔
    w = 0b1010#4 ++ dr.toBits ++ offset9) ∧
  ∀ (dr : Reg) (offset9 : BitVec 9) (s : State) (ea p v : Word), ea = s.pc + offset9.signExtend 16 →
    p = s.loadValue ea → v = (s.memRead ea).loadValue p →
      ∃ t, exec (.ldi dr offset9) s = .next t ∧ ProducesResult dr v s t ∧ t.mar = p ∧ t.mdr = v ∧ MemoryKept s t ∧
        PortAfterRead ea p s (s.memRead ea) ∧ PortAfterRead p v (s.memRead ea) t ∧
        (s.isDevice ea = false → s.isDevice p = false → v = s.mem.read (s.mem.read ea))

/-- R206: LDR; the address is computed from the old base. -/
def Obligations.LdrResult : Prop :=
  (∀ (w : Word) (dr base : Reg) (offset6 : BitVec 6), decode w = .valid (.ldr dr base offset6) ↔
    w = 0b0110#4 ++ dr.toBits ++ base.toBits ++ offset6) ∧
  ∀ (dr base : Reg) (offset6 : BitVec 6) (s : State) (ea v : Word), ea = s.reg base + offset6.signExtend 16 →
    v = s.loadValue ea → ∃ t, exec (.ldr dr base offset6) s = .next t ∧ ProducesResult dr v s t ∧ t.mar = ea ∧ t.mdr = v ∧
      MemoryKept s t ∧ PortAfterRead ea v s t ∧ (s.isDevice ea = false → v = s.mem.read ea)

/-- R209 and R210: LEA reads no memory and sets the codes from the address. -/
def Obligations.LeaResult : Prop :=
  (∀ (w : Word) (dr : Reg) (offset9 : BitVec 9), decode w = .valid (.lea dr offset9) ↔
    w = 0b1110#4 ++ dr.toBits ++ offset9) ∧
  ∀ (dr : Reg) (offset9 : BitVec 9) (s : State), ∃ t, exec (.lea dr offset9) s = .next t ∧
    ProducesResult dr (s.pc + offset9.signExtend 16) s t ∧ NoAccess s t

/-- R212: ST. -/
def Obligations.StStores : Prop :=
  (∀ (w : Word) (sr : Reg) (offset9 : BitVec 9), decode w = .valid (.st sr offset9) ↔
    w = 0b0011#4 ++ sr.toBits ++ offset9) ∧
  ∀ (sr : Reg) (offset9 : BitVec 9) (s : State), ∃ t, exec (.st sr offset9) s = .next t ∧
    StoresOnly (s.pc + offset9.signExtend 16) (s.reg sr) s t ∧ Stores (s.pc + offset9.signExtend 16) (s.reg sr) s t

/-- R214: STI, the pointer read before the write. -/
def Obligations.StiStores : Prop :=
  (∀ (w : Word) (sr : Reg) (offset9 : BitVec 9), decode w = .valid (.sti sr offset9) ↔
    w = 0b1011#4 ++ sr.toBits ++ offset9) ∧
  ∀ (sr : Reg) (offset9 : BitVec 9) (s : State) (ea p : Word), ea = s.pc + offset9.signExtend 16 → p = s.loadValue ea →
    ∃ t, exec (.sti sr offset9) s = .next t ∧ StoresOnly p (s.reg sr) s t ∧ Stores p (s.reg sr) (s.memRead ea) t ∧
      PortAfterRead ea p s (s.memRead ea) ∧ MemoryKept s (s.memRead ea) ∧ (s.isDevice ea = false → p = s.mem.read ea)

/-- R216: STR. -/
def Obligations.StrStores : Prop :=
  (∀ (w : Word) (sr base : Reg) (offset6 : BitVec 6), decode w = .valid (.str sr base offset6) ↔
    w = 0b0111#4 ++ sr.toBits ++ base.toBits ++ offset6) ∧
  ∀ (sr base : Reg) (offset6 : BitVec 6) (s : State), ∃ t, exec (.str sr base offset6) s = .next t ∧
    StoresOnly (s.reg base + offset6.signExtend 16) (s.reg sr) s t ∧
    Stores (s.reg base + offset6.signExtend 16) (s.reg sr) s t

/-- 43_loadstore.md, Loads (R204, marked derived there): after ST stores a pointer and the host writes a value behind it, an LDI
whose PC-relative address is the pointer's loads that value, when neither address is the device's and the two differ. -/
def Obligations.LdiLoadsThroughAStoredPointer : Prop :=
  ∀ (s t : State) (sr dr : Reg) (offset9 offset9' : BitVec 9) (a v pc : Word),
    a = s.pc + offset9.signExtend 16 → s.isDevice a = false → s.isDevice (s.reg sr) = false → a ≠ s.reg sr →
      exec (.st sr offset9) s = .next t → pc + offset9'.signExtend 16 = a →
        ∃ u, exec (.ldi dr offset9') (hostSetPc pc (hostMemWrite (s.reg sr) v t)) = .next u ∧ u.reg dr = v

/-! ### System instructions -/

/-- 44_system.md, TRAP (R230; that the PSR, the mode and the stack are left alone is the spec's D11). -/
def Obligations.TrapLinksAndVectors : Prop :=
  (∀ (w : Word) (trapvect8 : BitVec 8), decode w = .valid (.trap trapvect8) ↔ w = 0b11110000#8 ++ trapvect8) ∧
  (∀ w : Word, w.toNat / 4096 = 0xF → w.toNat / 256 ≠ 0xF0 → decode w = .invalid .trapBits) ∧
  ∀ (trapvect8 : BitVec 8) (s : State) (a : Word), a = trapvect8.zeroExtend 16 →
    ∃ t, exec (.trap trapvect8) s = .next t ∧ Links s t ∧ t.pc = s.loadValue a ∧ t.mar = a ∧ t.mdr = s.loadValue a ∧
      PortAfterRead a (s.loadValue a) s t ∧ (s.isDevice a = false → t.pc = s.mem.read a)

/-- 44_system.md, RTI (R232, R233; the check is the spec's D6, the single read D9, the whole PSR D26, no stack swap D7): when the
check passes, the PC and then the PSR are popped from the stack at R6. -/
def Obligations.RtiPopsPcAndPsr : Prop :=
  (∀ w : Word, decode w = .valid .rti ↔ w = 0x8000) ∧
  ∀ (s : State) (sp w0 w1 : Word), sp = s.reg .r6 → w0 = s.loadValue sp → w1 = (s.memRead sp).loadValue (sp + 1) →
    (s.cfg.rtiPrivCheck = .stackWord ∧ w0.getLsbD 15 = false) ∨
        (s.cfg.rtiPrivCheck = .psrMode ∧ s.psr.getLsbD 15 = false) →
      ∃ t, exec .rti s = .next t ∧ t.status = .ok ∧ t.pc = w0 ∧ t.psr = w1 ∧ t.reg .r6 = sp + 2 ∧
        RegsKeptBut .r6 s t ∧ MemoryKept s t ∧ CycleKept s t ∧ t.mar = sp + 1 ∧ t.mdr = w1 ∧
        PortAfterRead sp w0 s (s.memRead sp) ∧ PortAfterRead (sp + 1) w1 (s.memRead sp) t ∧
        (s.isDevice sp = false → s.isDevice (sp + 1) = false →
          t.pc = s.mem.read sp ∧ t.psr = s.mem.read (sp + 1))

/-- 44_system.md, RTI (R234; that the PC keeps the fetch increment is the spec's D8): when the check fails nothing is popped. -/
def Obligations.RtiPrivilegeViolationPopsNothing : Prop :=
  ∀ s : State,
    (s.cfg.rtiPrivCheck = .stackWord ∧ (s.loadValue (s.reg .r6)).getLsbD 15 = true) ∨
        (s.cfg.rtiPrivCheck = .psrMode ∧ s.psr.getLsbD 15 = true) →
      ∃ t, exec .rti s = .next t ∧ FaultsKeeping .privilegeViolation s t ∧ t.pc = s.pc ∧ CycleKept s t ∧
        (s.cfg.rtiPrivCheck = .stackWord → t.mar = s.reg .r6 ∧ t.mdr = s.loadValue (s.reg .r6) ∧
          PortAfterRead (s.reg .r6) (s.loadValue (s.reg .r6)) s t) ∧
        (s.cfg.rtiPrivCheck = .psrMode → NoAccess s t)

/-- 44_system.md, RTI (R235 case a, marked derived there; the check is the spec's D6, log 14): under StackWord RTI ends the
same whatever the PSR holds. A completed RTI leaves the very same state, below 0x8000; a failed one leaves states that differ
in the PSR alone, which it keeps. -/
def Obligations.RtiUnderStackWordIgnoresTheMode : Prop :=
  ∀ (s : State) (psr : Word), s.cfg.rtiPrivCheck = .stackWord →
    ∃ t, exec .rti s = .next t ∧
      (t.status = .ok → exec .rti { s with psr := psr } = .next t ∧ t.pc.toNat < 0x8000) ∧
      (t.status ≠ .ok → exec .rti { s with psr := psr } = .next { t with psr := psr })

/-- 44_system.md, The reserved opcode (R236, R138; that the row's meaning is the decode failure is log 9): every word of opcode
0xD ends the step with ReservedOpcode and the PC back at the instruction's address. -/
def Obligations.ReservedOpcodeRestoresThePc : Prop :=
  (∀ (w : Word) (payload : BitVec 12), decode w = .valid (.reserved payload) ↔ w = 0b1101#4 ++ payload) ∧
  ∀ (payload : BitVec 12) (s : State), ∃ t, exec (.reserved payload) s = .next t ∧ FaultsKeeping .reservedOpcode s t ∧
    t.pc = s.pc - 1 ∧ NoAccess s t ∧ CycleKept s t

/-! ### Rules over all instructions -/

/-- 10_state.md, General registers (R21): no register but those listed is written by an instruction; between steps the host
writes any of them. -/
def Obligations.RegistersAreWrittenOnlyAsListed : Prop :=
  (∀ (i : Instr) (s : State), ∃ t, exec i s = .next t ∧ ∀ r, ¬writesReg i r → t.reg r = s.reg r) ∧
    ∀ (r : Reg) (v : Word) (s : State), ∃ i t, i < 8 ∧ hostSetRegister i v s = .next t ∧ t.reg r = v ∧ RegsKeptBut r s t

/-- 10_state.md, Program counter (R25): every instruction that is no control transfer leaves the PC at `iaddr + 1`, the PC its
execute phase begins with. -/
def Obligations.PcIsLeftAloneByTheOthers : Prop :=
  ∀ (i : Instr) (s : State), ∃ t, exec i s = .next t ∧ (writesPc i = false → t.pc = s.pc ∧ t.status = .ok)

/-- 20_memory.md, Byte order, alignment, widths, side effects (R70, marked derived there): only ST, STI and STR change memory, in
the one cell they store to, and at a device address no cell. -/
def Obligations.MemoryIsChangedOnlyByStores : Prop :=
  ∀ (i : Instr) (s : State), ∃ t, exec i s = .next t ∧ ∀ b, t.mem.read b =
    match storeOf i s with
    | some (a, v) => if b = a ∧ s.isDevice a = false then v else s.mem.read b
    | none => s.mem.read b

/-- 70_reset_and_hazards.md, Reset (R292; the spec's D14): no step and no reset changes the parameters. -/
def Obligations.ParametersAreNeverChanged : Prop :=
  ∀ s : State, (∃ t, step s = .next t ∧ t.cfg = s.cfg) ∧ (hostReset s).cfg = s.cfg

/-! ### Memory interface -/

/-- 20_memory.md, The memory_enable protocol (R62): memory_enable on the array, in either direction. -/
def Obligations.MemoryEnableReadsOrWritesTheCell : Prop :=
  ∀ s : State, s.isDevice s.mar = false →
    s.memoryEnable false = { s with mdr := s.mem.read s.mar } ∧
      (s.memoryEnable true).mem.read s.mar = s.mdr ∧
      (∀ b, b ≠ s.mar → (s.memoryEnable true).mem.read b = s.mem.read b) ∧
      s.memoryEnable true = { s with mem := (s.memoryEnable true).mem }

/-- 20_memory.md, Memory-mapped device registers (R66; the spec's D15; the value read is the free value of log 4): a device read
is one transaction whose value is the platform's, a device write is delivered and changes no cell. -/
def Obligations.DeviceAccessesGoToThePort : Prop :=
  ∀ (s : State) (a v : Word), s.cfg.ioMode = .device → a ∈ s.cfg.ioAddrs →
    (∃ d, (s.memRead a).bus = d ∧ (s.memRead a).mdr = d ∧ (s.memRead a).deviceLog = .read a d :: s.deviceLog ∧
      (s.memRead a).draws = s.draws + 1 ∧ (s.memRead a).mem = s.mem) ∧
    (s.memWrite a v).deviceLog = .write a v :: s.deviceLog ∧ (s.memWrite a v).mem = s.mem

/-- 20_memory.md, Ordering and synchronisation (R78, marked derived there): a store to the next instruction's cell is what the
very next fetch reads. -/
def Obligations.NextFetchSeesTheStore : Prop :=
  ∀ (i : Instr) (s t : State) (v : Word), storeOf i s = some (s.pc, v) → s.isDevice s.pc = false → exec i s = .next t →
    t.pc = s.pc ∧ t.fetch.ir = v

/-! ### The invariant -/

/-- Every step keeps the invariant: canonical memory (log 8), the device port's record (log 4), the decoded record of the
fetched word (R144) and the consistency of the flags with the status (R143, R255). -/
def Obligations.StepKeepsTheInvariant : Prop :=
  ∀ s t : State, s.Inv → step s = .next t → t.Inv

/-- The reset state meets the invariant. -/
def Obligations.ResetMeetsTheInvariant : Prop := State.reset.Inv

/-- Every host operation that changes the state keeps the invariant. -/
def Obligations.HostOperationsKeepTheInvariant : Prop :=
  ∀ s : State, s.Inv → (hostReset s).Inv ∧ (∀ v, (hostSetPc v s).Inv) ∧ (∀ a v, (hostMemWrite a v s).Inv) ∧
    ∀ i v t, hostSetRegister i v s = .next t → t.Inv

/-! ### Reset and the host operations -/

/-- 70_reset_and_hazards.md, Reset (R290, R291) and 00_scope.md (R7). Every value here is a choice: what reset leaves is the
spec's D14 (log 5), in the PSR layout of D4 (log 6), and the default parameters of the state the model starts from are D5
(log 21), D6 (log 14) and D15 (the addresses PRESUMED, log 25). -/
def Obligations.ResetValues : Prop :=
  (∀ s : State, (∀ r, (hostReset s).reg r = 0x0000) ∧ (hostReset s).pc = 0x0000 ∧ (hostReset s).ir = 0x0000 ∧
    (hostReset s).psr = 0x0002 ∧ (hostReset s).mar = 0x0000 ∧ (hostReset s).mdr = 0x0000 ∧ (hostReset s).bus = 0x0000 ∧
    (∀ a, (hostReset s).mem.read a = 0x0000) ∧ (hostReset s).mode = .supervisor ∧ (hostReset s).cc = 0b010#3 ∧
    (hostReset s).fetch.mar = 0x0000) ∧
  hostReset State.reset = State.reset ∧ State.reset.cfg.brZeroMaskTaken = true ∧
  State.reset.cfg.rtiPrivCheck = .stackWord ∧ State.reset.cfg.ioMode = .device ∧
  State.reset.cfg.ioAddrs = [0xFE00, 0xFE02, 0xFE04, 0xFE06]

/-- 40_cycle.md, Host operations (R150; the refusal is the spec's D17): register and PC access by the host. -/
def Obligations.HostRegisterAccess : Prop :=
  (∀ (s : State) (i : Nat) (v : Word), i < 8 →
    ∃ r t, r.toBits.toNat = i ∧ hostGetRegister i s = some (s.reg r) ∧ hostSetRegister i v s = .next t ∧ t.reg r = v ∧
      RegsKeptBut r s t ∧ t = { s with regs := t.regs }) ∧
  (∀ (s : State) (i : Nat) (v : Word), 8 ≤ i →
    hostGetRegister i s = none ∧ hostSetRegister i v s = .refused (.registerIndex i)) ∧
  ∀ (s : State) (v : Word), hostGetPc s = s.pc ∧ hostSetPc v s = { s with pc := v }

/-- 40_cycle.md, Host operations (R151; the direct access is the spec's D16): the host reads and writes the array itself, also at
a device address. -/
def Obligations.HostMemoryAccess : Prop :=
  ∀ (s : State) (a b v : Word), hostMemRead a s = s.mem.read a ∧
    hostMemRead b (hostMemWrite a v s) = (if b = a then v else hostMemRead b s) ∧
    hostMemWrite a v s = { s with mem := (hostMemWrite a v s).mem }

/-- R149: the codes and the mode as the host sees them, and that no host operation but reset writes the PSR. -/
def Obligations.HostReadsCodesAndMode : Prop :=
  ∀ s : State,
    (hostGetConditionCode s).toNat = s.psr.toNat % 8 ∧
      (hostGetMode s = .supervisor ↔ s.psr.getLsbD 15 = false) ∧ (hostGetMode s = .user ↔ s.psr.getLsbD 15 = true) ∧
      (∀ v, (hostSetPc v s).psr = s.psr) ∧ (∀ a v, (hostMemWrite a v s).psr = s.psr) ∧
      ∀ i v t, hostSetRegister i v s = .next t → t.psr = s.psr

/-- 70_reset_and_hazards.md, Boot requirements (R294, marked derived there; with the device addresses as memory, log 17): from
every state whose cells all read 0x0000, whatever its PC, registers, PSR and BR_ZERO_MASK_TAKEN, a step moves the PC to the
next address and changes no register, PSR, memory or parameter. R294's endless run follows step by step. -/
def Obligations.EmptyMemoryStepOnlyMovesThePc : Prop :=
  ∀ s : State, s.cfg.ioMode = .asMemory → (∀ a, s.mem.read a = 0x0000) →
    ∃ t, step s = .next t ∧ t.status = .ok ∧ t.flags = Classification.none ∧ t.pc = s.pc + 1 ∧ t.psr = s.psr ∧
      RegsKept s t ∧ MemoryKept s t ∧ PortKept s t ∧ t.cfg = s.cfg

/-- 40_cycle.md, Host operations (R148, the spec's D23; log 24): the driver's run ends at the first step whose status is not OK,
so allowing it more steps leaves the same state, and every step before the last was OK. -/
def Obligations.DriverRunEndsAtTheFirstFault : Prop :=
  ∀ (k : Nat) (s t : State), s.status = .ok → driverRun (k + 1) s = .next t →
    (t.status ≠ .ok → ∀ n, driverRun (k + 1 + n) s = .next t) ∧
      ∃ (j : Nat) (u : State), j ≤ k ∧ driverRun j s = .next u ∧ u.status = .ok ∧ step u = .next t ∧
        (t.status = .ok → j = k)
end

