-- ==== Sys2Proof/Laws/Decode.lean ====
section
/-! SUPPORT. Register and opcode fields read back, and the fields of a word by arithmetic. -/

namespace Sys2Proof

@[simp] theorem Reg.ofBits_toBits (r : Reg) : Reg.ofBits r.toBits = r := by cases r <;> rfl

@[simp] theorem Reg.toBits_ofBits (b : BitVec 3) : (Reg.ofBits b).toBits = b := by
  revert b
  decide

@[simp] theorem Opcode.ofBits_toBits (o : Opcode) : Opcode.ofBits o.toBits = o := by cases o <;> rfl

@[simp] theorem Opcode.toBits_ofBits (b : BitVec 4) : (Opcode.ofBits b).toBits = b := by
  revert b
  decide

theorem Reg.toBits_inj {a b : Reg} (h : a.toBits = b.toBits) : a = b := by
  rw [← Reg.ofBits_toBits a, ← Reg.ofBits_toBits b, h]

/-- The opcode's number is the top nibble of the word (R90). -/
theorem opcodeOf_toNat (w : Word) : (opcodeOf w).toBits.toNat = w.toNat / 4096 := by
  have := w.isLt
  simp only [opcodeOf, Opcode.toBits_ofBits, BitVec.extractLsb'_toNat, Nat.shiftRight_eq_div_pow]
  omega

/-- The word of an opcode field above twelve other bits (R90). -/
theorem opcodeOf_append (o : BitVec 4) (rest : BitVec 12) : opcodeOf (o ++ rest) = Opcode.ofBits o := by
  unfold opcodeOf
  rw [BitVec.extractLsb'_append_eq_of_le (by decide)]
  simp

end Sys2Proof
end

