-- ==== Sys2Proof/Laws/State.lean ====
section
/-! SUPPORT. What each update of the state does to each field: one lemma per field per update, by rfl. -/

namespace Sys2Proof.Machine

variable (s : State)

/-! ### driveBus -/

@[simp] theorem State.driveBus_regs (v : Word) : (s.driveBus v).regs = s.regs := rfl
@[simp] theorem State.driveBus_pc (v : Word) : (s.driveBus v).pc = s.pc := rfl
@[simp] theorem State.driveBus_ir (v : Word) : (s.driveBus v).ir = s.ir := rfl
@[simp] theorem State.driveBus_psr (v : Word) : (s.driveBus v).psr = s.psr := rfl
@[simp] theorem State.driveBus_mar (v : Word) : (s.driveBus v).mar = s.mar := rfl
@[simp] theorem State.driveBus_mdr (v : Word) : (s.driveBus v).mdr = s.mdr := rfl
@[simp] theorem State.driveBus_bus (v : Word) : (s.driveBus v).bus = v := rfl
@[simp] theorem State.driveBus_mem (v : Word) : (s.driveBus v).mem = s.mem := rfl
@[simp] theorem State.driveBus_cfg (v : Word) : (s.driveBus v).cfg = s.cfg := rfl
@[simp] theorem State.driveBus_status (v : Word) : (s.driveBus v).status = s.status := rfl
@[simp] theorem State.driveBus_record (v : Word) : (s.driveBus v).record = s.record := rfl
@[simp] theorem State.driveBus_flags (v : Word) : (s.driveBus v).flags = s.flags := rfl
@[simp] theorem State.driveBus_deviceLog (v : Word) : (s.driveBus v).deviceLog = s.deviceLog := rfl
@[simp] theorem State.driveBus_draws (v : Word) : (s.driveBus v).draws = s.draws := rfl

/-! ### loadReg -/

@[simp] theorem State.loadReg_regs (r : Reg) : (s.loadReg r).regs = s.regs.set r s.bus := rfl
@[simp] theorem State.loadReg_pc (r : Reg) : (s.loadReg r).pc = s.pc := rfl
@[simp] theorem State.loadReg_ir (r : Reg) : (s.loadReg r).ir = s.ir := rfl
@[simp] theorem State.loadReg_psr (r : Reg) : (s.loadReg r).psr = s.psr := rfl
@[simp] theorem State.loadReg_mar (r : Reg) : (s.loadReg r).mar = s.mar := rfl
@[simp] theorem State.loadReg_mdr (r : Reg) : (s.loadReg r).mdr = s.mdr := rfl
@[simp] theorem State.loadReg_bus (r : Reg) : (s.loadReg r).bus = s.bus := rfl
@[simp] theorem State.loadReg_mem (r : Reg) : (s.loadReg r).mem = s.mem := rfl
@[simp] theorem State.loadReg_cfg (r : Reg) : (s.loadReg r).cfg = s.cfg := rfl
@[simp] theorem State.loadReg_status (r : Reg) : (s.loadReg r).status = s.status := rfl
@[simp] theorem State.loadReg_record (r : Reg) : (s.loadReg r).record = s.record := rfl
@[simp] theorem State.loadReg_flags (r : Reg) : (s.loadReg r).flags = s.flags := rfl
@[simp] theorem State.loadReg_deviceLog (r : Reg) : (s.loadReg r).deviceLog = s.deviceLog := rfl
@[simp] theorem State.loadReg_draws (r : Reg) : (s.loadReg r).draws = s.draws := rfl

/-! ### loadPc -/

@[simp] theorem State.loadPc_regs : s.loadPc.regs = s.regs := rfl
@[simp] theorem State.loadPc_pc : s.loadPc.pc = s.bus := rfl
@[simp] theorem State.loadPc_ir : s.loadPc.ir = s.ir := rfl
@[simp] theorem State.loadPc_psr : s.loadPc.psr = s.psr := rfl
@[simp] theorem State.loadPc_mar : s.loadPc.mar = s.mar := rfl
@[simp] theorem State.loadPc_mdr : s.loadPc.mdr = s.mdr := rfl
@[simp] theorem State.loadPc_bus : s.loadPc.bus = s.bus := rfl
@[simp] theorem State.loadPc_mem : s.loadPc.mem = s.mem := rfl
@[simp] theorem State.loadPc_cfg : s.loadPc.cfg = s.cfg := rfl
@[simp] theorem State.loadPc_status : s.loadPc.status = s.status := rfl
@[simp] theorem State.loadPc_record : s.loadPc.record = s.record := rfl
@[simp] theorem State.loadPc_flags : s.loadPc.flags = s.flags := rfl
@[simp] theorem State.loadPc_deviceLog : s.loadPc.deviceLog = s.deviceLog := rfl
@[simp] theorem State.loadPc_draws : s.loadPc.draws = s.draws := rfl

/-! ### loadIr -/

@[simp] theorem State.loadIr_regs : s.loadIr.regs = s.regs := rfl
@[simp] theorem State.loadIr_pc : s.loadIr.pc = s.pc := rfl
@[simp] theorem State.loadIr_ir : s.loadIr.ir = s.bus := rfl
@[simp] theorem State.loadIr_psr : s.loadIr.psr = s.psr := rfl
@[simp] theorem State.loadIr_mar : s.loadIr.mar = s.mar := rfl
@[simp] theorem State.loadIr_mdr : s.loadIr.mdr = s.mdr := rfl
@[simp] theorem State.loadIr_bus : s.loadIr.bus = s.bus := rfl
@[simp] theorem State.loadIr_mem : s.loadIr.mem = s.mem := rfl
@[simp] theorem State.loadIr_cfg : s.loadIr.cfg = s.cfg := rfl
@[simp] theorem State.loadIr_status : s.loadIr.status = s.status := rfl
@[simp] theorem State.loadIr_record : s.loadIr.record = s.record := rfl
@[simp] theorem State.loadIr_flags : s.loadIr.flags = s.flags := rfl
@[simp] theorem State.loadIr_deviceLog : s.loadIr.deviceLog = s.deviceLog := rfl
@[simp] theorem State.loadIr_draws : s.loadIr.draws = s.draws := rfl

/-! ### loadPsr -/

@[simp] theorem State.loadPsr_regs : s.loadPsr.regs = s.regs := rfl
@[simp] theorem State.loadPsr_pc : s.loadPsr.pc = s.pc := rfl
@[simp] theorem State.loadPsr_ir : s.loadPsr.ir = s.ir := rfl
@[simp] theorem State.loadPsr_psr : s.loadPsr.psr = s.bus := rfl
@[simp] theorem State.loadPsr_mar : s.loadPsr.mar = s.mar := rfl
@[simp] theorem State.loadPsr_mdr : s.loadPsr.mdr = s.mdr := rfl
@[simp] theorem State.loadPsr_bus : s.loadPsr.bus = s.bus := rfl
@[simp] theorem State.loadPsr_mem : s.loadPsr.mem = s.mem := rfl
@[simp] theorem State.loadPsr_cfg : s.loadPsr.cfg = s.cfg := rfl
@[simp] theorem State.loadPsr_status : s.loadPsr.status = s.status := rfl
@[simp] theorem State.loadPsr_record : s.loadPsr.record = s.record := rfl
@[simp] theorem State.loadPsr_flags : s.loadPsr.flags = s.flags := rfl
@[simp] theorem State.loadPsr_deviceLog : s.loadPsr.deviceLog = s.deviceLog := rfl
@[simp] theorem State.loadPsr_draws : s.loadPsr.draws = s.draws := rfl

/-! ### loadMar -/

@[simp] theorem State.loadMar_regs : s.loadMar.regs = s.regs := rfl
@[simp] theorem State.loadMar_pc : s.loadMar.pc = s.pc := rfl
@[simp] theorem State.loadMar_ir : s.loadMar.ir = s.ir := rfl
@[simp] theorem State.loadMar_psr : s.loadMar.psr = s.psr := rfl
@[simp] theorem State.loadMar_mar : s.loadMar.mar = s.bus := rfl
@[simp] theorem State.loadMar_mdr : s.loadMar.mdr = s.mdr := rfl
@[simp] theorem State.loadMar_bus : s.loadMar.bus = s.bus := rfl
@[simp] theorem State.loadMar_mem : s.loadMar.mem = s.mem := rfl
@[simp] theorem State.loadMar_cfg : s.loadMar.cfg = s.cfg := rfl
@[simp] theorem State.loadMar_status : s.loadMar.status = s.status := rfl
@[simp] theorem State.loadMar_record : s.loadMar.record = s.record := rfl
@[simp] theorem State.loadMar_flags : s.loadMar.flags = s.flags := rfl
@[simp] theorem State.loadMar_deviceLog : s.loadMar.deviceLog = s.deviceLog := rfl
@[simp] theorem State.loadMar_draws : s.loadMar.draws = s.draws := rfl

/-! ### loadMdr -/

@[simp] theorem State.loadMdr_regs : s.loadMdr.regs = s.regs := rfl
@[simp] theorem State.loadMdr_pc : s.loadMdr.pc = s.pc := rfl
@[simp] theorem State.loadMdr_ir : s.loadMdr.ir = s.ir := rfl
@[simp] theorem State.loadMdr_psr : s.loadMdr.psr = s.psr := rfl
@[simp] theorem State.loadMdr_mar : s.loadMdr.mar = s.mar := rfl
@[simp] theorem State.loadMdr_mdr : s.loadMdr.mdr = s.bus := rfl
@[simp] theorem State.loadMdr_bus : s.loadMdr.bus = s.bus := rfl
@[simp] theorem State.loadMdr_mem : s.loadMdr.mem = s.mem := rfl
@[simp] theorem State.loadMdr_cfg : s.loadMdr.cfg = s.cfg := rfl
@[simp] theorem State.loadMdr_status : s.loadMdr.status = s.status := rfl
@[simp] theorem State.loadMdr_record : s.loadMdr.record = s.record := rfl
@[simp] theorem State.loadMdr_flags : s.loadMdr.flags = s.flags := rfl
@[simp] theorem State.loadMdr_deviceLog : s.loadMdr.deviceLog = s.deviceLog := rfl
@[simp] theorem State.loadMdr_draws : s.loadMdr.draws = s.draws := rfl

/-! ### incrementPc -/

@[simp] theorem State.incrementPc_regs : s.incrementPc.regs = s.regs := rfl
@[simp] theorem State.incrementPc_pc : s.incrementPc.pc = s.pc + 1 := rfl
@[simp] theorem State.incrementPc_ir : s.incrementPc.ir = s.ir := rfl
@[simp] theorem State.incrementPc_psr : s.incrementPc.psr = s.psr := rfl
@[simp] theorem State.incrementPc_mar : s.incrementPc.mar = s.mar := rfl
@[simp] theorem State.incrementPc_mdr : s.incrementPc.mdr = s.mdr := rfl
@[simp] theorem State.incrementPc_bus : s.incrementPc.bus = s.bus := rfl
@[simp] theorem State.incrementPc_mem : s.incrementPc.mem = s.mem := rfl
@[simp] theorem State.incrementPc_cfg : s.incrementPc.cfg = s.cfg := rfl
@[simp] theorem State.incrementPc_status : s.incrementPc.status = s.status := rfl
@[simp] theorem State.incrementPc_record : s.incrementPc.record = s.record := rfl
@[simp] theorem State.incrementPc_flags : s.incrementPc.flags = s.flags := rfl
@[simp] theorem State.incrementPc_deviceLog : s.incrementPc.deviceLog = s.deviceLog := rfl
@[simp] theorem State.incrementPc_draws : s.incrementPc.draws = s.draws := rfl

/-! ### devicePortRead -/

@[simp] theorem State.devicePortRead_regs : s.devicePortRead.regs = s.regs := rfl
@[simp] theorem State.devicePortRead_pc : s.devicePortRead.pc = s.pc := rfl
@[simp] theorem State.devicePortRead_ir : s.devicePortRead.ir = s.ir := rfl
@[simp] theorem State.devicePortRead_psr : s.devicePortRead.psr = s.psr := rfl
@[simp] theorem State.devicePortRead_mar : s.devicePortRead.mar = s.mar := rfl
@[simp] theorem State.devicePortRead_mdr : s.devicePortRead.mdr = Config.deviceRead s.draws s.deviceLog s.mar := rfl
@[simp] theorem State.devicePortRead_bus : s.devicePortRead.bus = s.bus := rfl
@[simp] theorem State.devicePortRead_mem : s.devicePortRead.mem = s.mem := rfl
@[simp] theorem State.devicePortRead_cfg : s.devicePortRead.cfg = s.cfg := rfl
@[simp] theorem State.devicePortRead_status : s.devicePortRead.status = s.status := rfl
@[simp] theorem State.devicePortRead_record : s.devicePortRead.record = s.record := rfl
@[simp] theorem State.devicePortRead_flags : s.devicePortRead.flags = s.flags := rfl
@[simp] theorem State.devicePortRead_deviceLog : s.devicePortRead.deviceLog = .read s.mar (Config.deviceRead s.draws s.deviceLog s.mar) :: s.deviceLog := rfl
@[simp] theorem State.devicePortRead_draws : s.devicePortRead.draws = s.draws + 1 := rfl

/-! ### devicePortWrite -/

@[simp] theorem State.devicePortWrite_regs : s.devicePortWrite.regs = s.regs := rfl
@[simp] theorem State.devicePortWrite_pc : s.devicePortWrite.pc = s.pc := rfl
@[simp] theorem State.devicePortWrite_ir : s.devicePortWrite.ir = s.ir := rfl
@[simp] theorem State.devicePortWrite_psr : s.devicePortWrite.psr = s.psr := rfl
@[simp] theorem State.devicePortWrite_mar : s.devicePortWrite.mar = s.mar := rfl
@[simp] theorem State.devicePortWrite_mdr : s.devicePortWrite.mdr = s.mdr := rfl
@[simp] theorem State.devicePortWrite_bus : s.devicePortWrite.bus = s.bus := rfl
@[simp] theorem State.devicePortWrite_mem : s.devicePortWrite.mem = s.mem := rfl
@[simp] theorem State.devicePortWrite_cfg : s.devicePortWrite.cfg = s.cfg := rfl
@[simp] theorem State.devicePortWrite_status : s.devicePortWrite.status = s.status := rfl
@[simp] theorem State.devicePortWrite_record : s.devicePortWrite.record = s.record := rfl
@[simp] theorem State.devicePortWrite_flags : s.devicePortWrite.flags = s.flags := rfl
@[simp] theorem State.devicePortWrite_deviceLog : s.devicePortWrite.deviceLog = .write s.mar s.mdr :: s.deviceLog := rfl
@[simp] theorem State.devicePortWrite_draws : s.devicePortWrite.draws = s.draws := rfl

/-! ### arrayRead -/

@[simp] theorem State.arrayRead_regs : s.arrayRead.regs = s.regs := rfl
@[simp] theorem State.arrayRead_pc : s.arrayRead.pc = s.pc := rfl
@[simp] theorem State.arrayRead_ir : s.arrayRead.ir = s.ir := rfl
@[simp] theorem State.arrayRead_psr : s.arrayRead.psr = s.psr := rfl
@[simp] theorem State.arrayRead_mar : s.arrayRead.mar = s.mar := rfl
@[simp] theorem State.arrayRead_mdr : s.arrayRead.mdr = s.mem.read s.mar := rfl
@[simp] theorem State.arrayRead_bus : s.arrayRead.bus = s.bus := rfl
@[simp] theorem State.arrayRead_mem : s.arrayRead.mem = s.mem := rfl
@[simp] theorem State.arrayRead_cfg : s.arrayRead.cfg = s.cfg := rfl
@[simp] theorem State.arrayRead_status : s.arrayRead.status = s.status := rfl
@[simp] theorem State.arrayRead_record : s.arrayRead.record = s.record := rfl
@[simp] theorem State.arrayRead_flags : s.arrayRead.flags = s.flags := rfl
@[simp] theorem State.arrayRead_deviceLog : s.arrayRead.deviceLog = s.deviceLog := rfl
@[simp] theorem State.arrayRead_draws : s.arrayRead.draws = s.draws := rfl

/-! ### arrayWrite -/

@[simp] theorem State.arrayWrite_regs : s.arrayWrite.regs = s.regs := rfl
@[simp] theorem State.arrayWrite_pc : s.arrayWrite.pc = s.pc := rfl
@[simp] theorem State.arrayWrite_ir : s.arrayWrite.ir = s.ir := rfl
@[simp] theorem State.arrayWrite_psr : s.arrayWrite.psr = s.psr := rfl
@[simp] theorem State.arrayWrite_mar : s.arrayWrite.mar = s.mar := rfl
@[simp] theorem State.arrayWrite_mdr : s.arrayWrite.mdr = s.mdr := rfl
@[simp] theorem State.arrayWrite_bus : s.arrayWrite.bus = s.bus := rfl
@[simp] theorem State.arrayWrite_mem : s.arrayWrite.mem = s.mem.write s.mar s.mdr := rfl
@[simp] theorem State.arrayWrite_cfg : s.arrayWrite.cfg = s.cfg := rfl
@[simp] theorem State.arrayWrite_status : s.arrayWrite.status = s.status := rfl
@[simp] theorem State.arrayWrite_record : s.arrayWrite.record = s.record := rfl
@[simp] theorem State.arrayWrite_flags : s.arrayWrite.flags = s.flags := rfl
@[simp] theorem State.arrayWrite_deviceLog : s.arrayWrite.deviceLog = s.deviceLog := rfl
@[simp] theorem State.arrayWrite_draws : s.arrayWrite.draws = s.draws := rfl

/-! ### latchRecord -/

@[simp] theorem State.latchRecord_regs : s.latchRecord.regs = s.regs := rfl
@[simp] theorem State.latchRecord_pc : s.latchRecord.pc = s.pc := rfl
@[simp] theorem State.latchRecord_ir : s.latchRecord.ir = s.ir := rfl
@[simp] theorem State.latchRecord_psr : s.latchRecord.psr = s.psr := rfl
@[simp] theorem State.latchRecord_mar : s.latchRecord.mar = s.mar := rfl
@[simp] theorem State.latchRecord_mdr : s.latchRecord.mdr = s.mdr := rfl
@[simp] theorem State.latchRecord_bus : s.latchRecord.bus = s.bus := rfl
@[simp] theorem State.latchRecord_mem : s.latchRecord.mem = s.mem := rfl
@[simp] theorem State.latchRecord_cfg : s.latchRecord.cfg = s.cfg := rfl
@[simp] theorem State.latchRecord_status : s.latchRecord.status = s.status := rfl
@[simp] theorem State.latchRecord_record : s.latchRecord.record = some (recordOf s.iaddr s.ir) := rfl
@[simp] theorem State.latchRecord_flags : s.latchRecord.flags = s.flags := rfl
@[simp] theorem State.latchRecord_deviceLog : s.latchRecord.deviceLog = s.deviceLog := rfl
@[simp] theorem State.latchRecord_draws : s.latchRecord.draws = s.draws := rfl

/-! ### report -/

@[simp] theorem State.report_regs (e : Status) (f : Classification) : (s.report e f).regs = s.regs := rfl
@[simp] theorem State.report_pc (e : Status) (f : Classification) : (s.report e f).pc = s.pc := rfl
@[simp] theorem State.report_ir (e : Status) (f : Classification) : (s.report e f).ir = s.ir := rfl
@[simp] theorem State.report_psr (e : Status) (f : Classification) : (s.report e f).psr = s.psr := rfl
@[simp] theorem State.report_mar (e : Status) (f : Classification) : (s.report e f).mar = s.mar := rfl
@[simp] theorem State.report_mdr (e : Status) (f : Classification) : (s.report e f).mdr = s.mdr := rfl
@[simp] theorem State.report_bus (e : Status) (f : Classification) : (s.report e f).bus = s.bus := rfl
@[simp] theorem State.report_mem (e : Status) (f : Classification) : (s.report e f).mem = s.mem := rfl
@[simp] theorem State.report_cfg (e : Status) (f : Classification) : (s.report e f).cfg = s.cfg := rfl
@[simp] theorem State.report_status (e : Status) (f : Classification) : (s.report e f).status = e := rfl
@[simp] theorem State.report_record (e : Status) (f : Classification) : (s.report e f).record = s.record := rfl
@[simp] theorem State.report_flags (e : Status) (f : Classification) : (s.report e f).flags = f := rfl
@[simp] theorem State.report_deviceLog (e : Status) (f : Classification) : (s.report e f).deviceLog = s.deviceLog := rfl
@[simp] theorem State.report_draws (e : Status) (f : Classification) : (s.report e f).draws = s.draws := rfl

/-! ### setcc -/

@[simp] theorem State.setcc_regs (v : Word) : (s.setcc v).regs = s.regs := rfl
@[simp] theorem State.setcc_pc (v : Word) : (s.setcc v).pc = s.pc := rfl
@[simp] theorem State.setcc_ir (v : Word) : (s.setcc v).ir = s.ir := rfl
@[simp] theorem State.setcc_psr (v : Word) : (s.setcc v).psr = psrWithCodes s.psr (conditionCodes v) := rfl
@[simp] theorem State.setcc_mar (v : Word) : (s.setcc v).mar = s.mar := rfl
@[simp] theorem State.setcc_mdr (v : Word) : (s.setcc v).mdr = s.mdr := rfl
@[simp] theorem State.setcc_bus (v : Word) : (s.setcc v).bus = s.bus := rfl
@[simp] theorem State.setcc_mem (v : Word) : (s.setcc v).mem = s.mem := rfl
@[simp] theorem State.setcc_cfg (v : Word) : (s.setcc v).cfg = s.cfg := rfl
@[simp] theorem State.setcc_status (v : Word) : (s.setcc v).status = s.status := rfl
@[simp] theorem State.setcc_record (v : Word) : (s.setcc v).record = s.record := rfl
@[simp] theorem State.setcc_flags (v : Word) : (s.setcc v).flags = s.flags := rfl
@[simp] theorem State.setcc_deviceLog (v : Word) : (s.setcc v).deviceLog = s.deviceLog := rfl
@[simp] theorem State.setcc_draws (v : Word) : (s.setcc v).draws = s.draws := rfl

end Sys2Proof.Machine
end

