-- ==== Sys2Proof/Laws/Flags.lean ====
section
/-! SUPPORT. The condition codes of a result and the PSR fields. -/

namespace Sys2Proof.Machine

/-- The codes replace bits 2:0 and keep bits 15:3 (R140). -/
theorem psrWithCodes_getLsbD (psr : Word) (codes : BitVec 3) (k : Nat) :
    (psrWithCodes psr codes).getLsbD k = if k < 3 then codes.getLsbD k else psr.getLsbD k := by
  simp only [psrWithCodes, BitVec.getLsbD_append, BitVec.getLsbD_extractLsb']
  by_cases hk : k < 3
  · simp [hk]
  · simp only [hk, if_false]
    by_cases h16 : k < 16
    · simp [show k - 3 < 13 by omega, show 3 + (k - 3) = k by omega]
    · simp [show ¬ k - 3 < 13 by omega, BitVec.getLsbD_of_ge psr k (by omega)]

/-- The codes read back from a PSR they were put into. -/
theorem psrWithCodes_codes (psr : Word) (codes : BitVec 3) : (psrWithCodes psr codes).extractLsb' 0 3 = codes := by
  ext k hk
  simp [← BitVec.getLsbD_eq_getElem, psrWithCodes_getLsbD, hk]

/-- N is bit 15 of the result, Z whether it is zero, P neither (R140). -/
theorem conditionCodes_getLsbD (v : Word) :
    (conditionCodes v).getLsbD 2 = v.getLsbD 15 ∧
      (conditionCodes v).getLsbD 1 = decide (v = 0) ∧
        (conditionCodes v).getLsbD 0 = (!v.getLsbD 15 && !decide (v = 0)) := by
  unfold conditionCodes
  by_cases hn : v.getLsbD 15
  · have hz : v ≠ 0 := by
      rintro rfl
      simp at hn
    rw [if_pos hn, hn, decide_eq_false hz]
    decide
  · rw [if_neg hn, Bool.eq_false_iff.mpr hn]
    by_cases hz : v = 0
    · rw [if_pos hz, decide_eq_true hz]
      decide
    · rw [if_neg hz, decide_eq_false hz]
      decide

/-- The codes of a result are one of the three one-hot patterns (R30). -/
theorem conditionCodes_oneHot (v : Word) :
    conditionCodes v = 0b100#3 ∨ conditionCodes v = 0b010#3 ∨ conditionCodes v = 0b001#3 := by
  unfold conditionCodes
  split
  · exact .inl rfl
  · split
    · exact .inr (.inl rfl)
    · exact .inr (.inr rfl)

@[simp] theorem State.setcc_cc (s : State) (v : Word) : (s.setcc v).cc = conditionCodes v := by
  simp [State.cc, psrWithCodes_codes]

/-- setcc leaves the mode alone (R140). -/
@[simp] theorem State.setcc_mode (s : State) (v : Word) : (s.setcc v).mode = s.mode := by
  simp only [State.mode, State.setcc_psr, psrWithCodes_getLsbD]
  rfl

end Sys2Proof.Machine
end

