-- ==== Sys2Proof/Laws/Memory.lean ====
section
/-! SUPPORT. The memory array: read after write, and the canonical form every operation keeps. -/

namespace Sys2Proof.Machine

@[simp] theorem Memory.lookup_nil (k : Nat) : Memory.lookup [] k = Memory.unlisted := rfl

@[simp] theorem Memory.lookup_cons (k' : Nat) (v' : Word) (m : Memory) (k : Nat) :
    Memory.lookup ((k', v') :: m) k = if k = k' then v' else Memory.lookup m k := rfl

theorem Memory.lookup_insert (m : Memory) (k j : Nat) (v : Word) :
    Memory.lookup (Memory.insert k v m) j = if j = k then v else Memory.lookup m j := by
  induction m with
  | nil => rfl
  | cons c m ih =>
    obtain ⟨k', v'⟩ := c
    simp only [Memory.insert]
    split
    · rfl
    · split
      · subst k'
        by_cases hj : j = k <;> simp [hj]
      · simp only [Memory.lookup_cons, ih]
        by_cases hj : j = k' <;> by_cases hk : j = k <;> simp_all

theorem Memory.lookup_erase (m : Memory) (k j : Nat) :
    Memory.lookup (m.filter (fun c => c.1 != k)) j = if j = k then Memory.unlisted else Memory.lookup m j := by
  induction m with
  | nil => simp
  | cons c m ih =>
    obtain ⟨k', v'⟩ := c
    by_cases hk : k' = k
    · by_cases hj : j = k <;> simp_all
    · have hc : (k' != k) = true := by simpa using hk
      simp only [List.filter_cons, hc, if_true, Memory.lookup_cons, ih]
      by_cases hj : j = k' <;> simp_all

/-- A cell reads as the last word written to it, and every other cell as before (R60, R62). -/
@[simp] theorem Memory.read_write (m : Memory) (a b v : Word) :
    (m.write a v).read b = if b = a then v else m.read b := by
  unfold Memory.write Memory.read
  by_cases hv : v = Memory.unlisted
  · simp [hv, Memory.lookup_erase, BitVec.toNat_inj]
  · simp [hv, Memory.lookup_insert, BitVec.toNat_inj]

@[simp] theorem Memory.read_nil (a : Word) : Memory.read [] a = 0 := rfl

theorem Memory.mem_insert {m : Memory} {k : Nat} {v : Word} {c : Nat × Word} (h : c ∈ Memory.insert k v m) :
    c = (k, v) ∨ c ∈ m := by
  induction m with
  | nil => simpa [Memory.insert] using h
  | cons d m ih =>
    obtain ⟨k', v'⟩ := d
    simp only [Memory.insert] at h
    split at h
    · simpa using h
    · split at h
      · rcases List.mem_cons.mp h with h | h
        · exact .inl h
        · exact .inr (List.mem_cons_of_mem _ h)
      · rcases List.mem_cons.mp h with h | h
        · exact .inr (by simp [h])
        · exact (ih h).imp_right (List.mem_cons_of_mem _)

theorem Memory.insert_pairwise {m : Memory} (k : Nat) (v : Word) (h : m.Pairwise (fun x y => x.1 < y.1)) :
    (Memory.insert k v m).Pairwise (fun x y => x.1 < y.1) := by
  induction m with
  | nil => simp [Memory.insert]
  | cons c m ih =>
    obtain ⟨k', v'⟩ := c
    obtain ⟨hc, hm⟩ := List.pairwise_cons.mp h
    simp only [Memory.insert]
    split
    · rename_i hlt
      refine List.pairwise_cons.mpr ⟨fun d hd => ?_, h⟩
      rcases List.mem_cons.mp hd with hd | hd
      · simp [hd, hlt]
      · have := hc d hd
        simp only at this ⊢
        omega
    · split
      · subst k'
        exact List.pairwise_cons.mpr ⟨hc, hm⟩
      · refine List.pairwise_cons.mpr ⟨fun d hd => ?_, ih hm⟩
        rcases Memory.mem_insert hd with hd | hd
        · simp only [hd]
          omega
        · exact hc d hd

/-- A write keeps the canonical form. -/
theorem Memory.write_wf {m : Memory} (a v : Word) (h : m.wf) : (m.write a v).wf := by
  obtain ⟨hp, hc⟩ := h
  unfold Memory.write
  split
  · exact ⟨hp.filter _, fun c hm => hc c (List.mem_filter.mp hm).1⟩
  · rename_i hv
    refine ⟨Memory.insert_pairwise _ _ hp, fun c hm => ?_⟩
    rcases Memory.mem_insert hm with hm | hm
    · exact ⟨by simpa [hm] using a.isLt, by simpa [hm] using hv⟩
    · exact hc c hm

theorem Memory.wf_nil : Memory.wf [] := by simp [Memory.wf]

theorem Memory.lookup_eq_of_lt {m : Memory} {k : Nat} (h : ∀ c ∈ m, k < c.1) : Memory.lookup m k = Memory.unlisted := by
  induction m with
  | nil => rfl
  | cons c m ih =>
    obtain ⟨k', v'⟩ := c
    have hk : k < k' := h (k', v') (by simp)
    simp only [Memory.lookup_cons]
    rw [if_neg (by omega)]
    exact ih fun d hd => h d (List.mem_cons_of_mem _ hd)

/-- Memories in canonical form that read alike are the same list. -/
theorem Memory.ext_lookup {m n : Memory} (hm : m.wf) (hn : n.wf)
    (h : ∀ k, Memory.lookup m k = Memory.lookup n k) : m = n := by
  induction m generalizing n with
  | nil =>
    cases n with
    | nil => rfl
    | cons d n =>
      obtain ⟨k, v⟩ := d
      have h1 := h k
      simp only [Memory.lookup_nil, Memory.lookup_cons, if_true] at h1
      exact absurd h1.symm (hn.2 (k, v) (by simp)).2
  | cons c m ih =>
    obtain ⟨k, v⟩ := c
    have hv := (hm.2 (k, v) (by simp)).2
    obtain ⟨hmk, hmp⟩ := List.pairwise_cons.mp hm.1
    cases n with
    | nil =>
      have h1 := h k
      simp only [Memory.lookup_nil, Memory.lookup_cons, if_true] at h1
      exact absurd h1 hv
    | cons d n =>
      obtain ⟨j, w⟩ := d
      have hw := (hn.2 (j, w) (by simp)).2
      obtain ⟨hnk, hnp⟩ := List.pairwise_cons.mp hn.1
      have hkj : k = j := by
        rcases Nat.lt_trichotomy k j with hlt | heq | hlt
        · have h1 := h k
          rw [Memory.lookup_eq_of_lt (m := (j, w) :: n)] at h1
          · simp only [Memory.lookup_cons, if_true] at h1
            exact absurd h1 hv
          · intro d hd
            rcases List.mem_cons.mp hd with hd | hd
            · simpa [hd] using hlt
            · have := hnk d hd
              simp only at this
              omega
        · exact heq
        · have h1 := h j
          rw [Memory.lookup_eq_of_lt (m := (k, v) :: m)] at h1
          · simp only [Memory.lookup_cons, if_true] at h1
            exact absurd h1.symm hw
          · intro d hd
            rcases List.mem_cons.mp hd with hd | hd
            · simpa [hd] using hlt
            · have := hmk d hd
              simp only at this
              omega
      subst hkj
      have hvw : v = w := by simpa using h k
      subst hvw
      congr 1
      refine ih ⟨hmp, fun d hd => hm.2 d (List.mem_cons_of_mem _ hd)⟩
        ⟨hnp, fun d hd => hn.2 d (List.mem_cons_of_mem _ hd)⟩ fun i => ?_
      by_cases hi : i = k
      · subst hi
        rw [Memory.lookup_eq_of_lt hmk, Memory.lookup_eq_of_lt hnk]
      · simpa [hi] using h i

end Sys2Proof.Machine
end

