-- ==== Sys2Proof/Laws/Registers.lean ====
section
/-! SUPPORT. The register file: reading after writing, through the file, the state and the register transfers. -/

namespace Sys2Proof.Machine

/-- A read gives the last value written to that register, and the old value of every other one (R20). -/
@[simp] theorem RegFile.get_set (f : RegFile) (d r : Reg) (v : Word) :
    (f.set d v).get r = if r = d then v else f.get r := by
  cases d <;> cases r <;> rfl

/-- Two register files that read alike are equal. -/
theorem RegFile.ext_get {f g : RegFile} (h : ∀ r, f.get r = g.get r) : f = g := by
  cases f
  cases g
  have h0 := h .r0
  have h1 := h .r1
  have h2 := h .r2
  have h3 := h .r3
  have h4 := h .r4
  have h5 := h .r5
  have h6 := h .r6
  have h7 := h .r7
  simp only [RegFile.get] at h0 h1 h2 h3 h4 h5 h6 h7
  simp [h0, h1, h2, h3, h4, h5, h6, h7]

/-- `x[r]` depends on the register file alone. -/
theorem State.reg_congr {s t : State} (h : t.regs = s.regs) (r : Reg) : t.reg r = s.reg r := by
  simp [State.reg, h]

@[simp] theorem State.writeReg_reg (s : State) (d r : Reg) (v : Word) :
    (s.writeReg d v).reg r = if r = d then v else s.reg r := by
  simp [State.writeReg, State.reg]

@[simp] theorem State.writePc_reg (s : State) (v : Word) (r : Reg) : (s.writePc v).reg r = s.reg r := rfl

@[simp] theorem State.writePsr_reg (s : State) (v : Word) (r : Reg) : (s.writePsr v).reg r = s.reg r := rfl

@[simp] theorem State.setcc_reg (s : State) (v : Word) (r : Reg) : (s.setcc v).reg r = s.reg r := rfl

@[simp] theorem State.report_reg (s : State) (e : Status) (f : Classification) (r : Reg) :
    (s.report e f).reg r = s.reg r := rfl

@[simp] theorem State.latchRecord_reg (s : State) (r : Reg) : s.latchRecord.reg r = s.reg r := rfl

end Sys2Proof.Machine
end

