-- ==== Sys2Proof/Laws/Ops.lean ====
section
/-! SUPPORT. What each shared operation can do, field by field, so that no later proof unfolds it. -/

namespace Sys2Proof.Machine

variable (s : State)

/-- Whether an address is the device's depends on the parameters alone. -/
theorem State.isDevice_congr {s t : State} (h : t.cfg = s.cfg) (a : Word) : t.isDevice a = s.isDevice a := by
  simp [State.isDevice, h]

/-- What a core read gives depends on the parameters, the array and the device port alone. -/
theorem State.loadValue_congr {s t : State} (hc : t.cfg = s.cfg) (hm : t.mem = s.mem)
    (hl : t.deviceLog = s.deviceLog) (hd : t.draws = s.draws) (a : Word) : t.loadValue a = s.loadValue a := by
  simp [State.loadValue, State.isDevice, hc, hm, hl, hd]

/-! ### writeReg -/

@[simp] theorem State.writeReg_regs (d : Reg) (v : Word) : (s.writeReg d v).regs = s.regs.set d v := rfl
@[simp] theorem State.writeReg_pc (d : Reg) (v : Word) : (s.writeReg d v).pc = s.pc := rfl
@[simp] theorem State.writeReg_ir (d : Reg) (v : Word) : (s.writeReg d v).ir = s.ir := rfl
@[simp] theorem State.writeReg_psr (d : Reg) (v : Word) : (s.writeReg d v).psr = s.psr := rfl
@[simp] theorem State.writeReg_mar (d : Reg) (v : Word) : (s.writeReg d v).mar = s.mar := rfl
@[simp] theorem State.writeReg_mdr (d : Reg) (v : Word) : (s.writeReg d v).mdr = s.mdr := rfl
@[simp] theorem State.writeReg_bus (d : Reg) (v : Word) : (s.writeReg d v).bus = v := rfl
@[simp] theorem State.writeReg_mem (d : Reg) (v : Word) : (s.writeReg d v).mem = s.mem := rfl
@[simp] theorem State.writeReg_cfg (d : Reg) (v : Word) : (s.writeReg d v).cfg = s.cfg := rfl
@[simp] theorem State.writeReg_status (d : Reg) (v : Word) : (s.writeReg d v).status = s.status := rfl
@[simp] theorem State.writeReg_record (d : Reg) (v : Word) : (s.writeReg d v).record = s.record := rfl
@[simp] theorem State.writeReg_flags (d : Reg) (v : Word) : (s.writeReg d v).flags = s.flags := rfl
@[simp] theorem State.writeReg_deviceLog (d : Reg) (v : Word) : (s.writeReg d v).deviceLog = s.deviceLog := rfl
@[simp] theorem State.writeReg_draws (d : Reg) (v : Word) : (s.writeReg d v).draws = s.draws := rfl

/-! ### writePc -/

@[simp] theorem State.writePc_regs (v : Word) : (s.writePc v).regs = s.regs := rfl
@[simp] theorem State.writePc_pc (v : Word) : (s.writePc v).pc = v := rfl
@[simp] theorem State.writePc_ir (v : Word) : (s.writePc v).ir = s.ir := rfl
@[simp] theorem State.writePc_psr (v : Word) : (s.writePc v).psr = s.psr := rfl
@[simp] theorem State.writePc_mar (v : Word) : (s.writePc v).mar = s.mar := rfl
@[simp] theorem State.writePc_mdr (v : Word) : (s.writePc v).mdr = s.mdr := rfl
@[simp] theorem State.writePc_bus (v : Word) : (s.writePc v).bus = v := rfl
@[simp] theorem State.writePc_mem (v : Word) : (s.writePc v).mem = s.mem := rfl
@[simp] theorem State.writePc_cfg (v : Word) : (s.writePc v).cfg = s.cfg := rfl
@[simp] theorem State.writePc_status (v : Word) : (s.writePc v).status = s.status := rfl
@[simp] theorem State.writePc_record (v : Word) : (s.writePc v).record = s.record := rfl
@[simp] theorem State.writePc_flags (v : Word) : (s.writePc v).flags = s.flags := rfl
@[simp] theorem State.writePc_deviceLog (v : Word) : (s.writePc v).deviceLog = s.deviceLog := rfl
@[simp] theorem State.writePc_draws (v : Word) : (s.writePc v).draws = s.draws := rfl

/-! ### writePsr -/

@[simp] theorem State.writePsr_regs (v : Word) : (s.writePsr v).regs = s.regs := rfl
@[simp] theorem State.writePsr_pc (v : Word) : (s.writePsr v).pc = s.pc := rfl
@[simp] theorem State.writePsr_ir (v : Word) : (s.writePsr v).ir = s.ir := rfl
@[simp] theorem State.writePsr_psr (v : Word) : (s.writePsr v).psr = v := rfl
@[simp] theorem State.writePsr_mar (v : Word) : (s.writePsr v).mar = s.mar := rfl
@[simp] theorem State.writePsr_mdr (v : Word) : (s.writePsr v).mdr = s.mdr := rfl
@[simp] theorem State.writePsr_bus (v : Word) : (s.writePsr v).bus = v := rfl
@[simp] theorem State.writePsr_mem (v : Word) : (s.writePsr v).mem = s.mem := rfl
@[simp] theorem State.writePsr_cfg (v : Word) : (s.writePsr v).cfg = s.cfg := rfl
@[simp] theorem State.writePsr_status (v : Word) : (s.writePsr v).status = s.status := rfl
@[simp] theorem State.writePsr_record (v : Word) : (s.writePsr v).record = s.record := rfl
@[simp] theorem State.writePsr_flags (v : Word) : (s.writePsr v).flags = s.flags := rfl
@[simp] theorem State.writePsr_deviceLog (v : Word) : (s.writePsr v).deviceLog = s.deviceLog := rfl
@[simp] theorem State.writePsr_draws (v : Word) : (s.writePsr v).draws = s.draws := rfl

/-! ### memRead -/

/-- The whole effect of `MemRead(a, 1)` (R63, R66). -/
theorem State.memRead_eq (a : Word) :
    s.memRead a =
      { s with
        mar := a
        mdr := s.loadValue a
        bus := s.loadValue a
        deviceLog := if s.isDevice a then .read a (s.loadValue a) :: s.deviceLog else s.deviceLog
        draws := if s.isDevice a then s.draws + 1 else s.draws } := by
  have hd : ((s.driveBus a).loadMar).isDevice a = s.isDevice a := rfl
  cases h : s.isDevice a <;> simp [State.memRead, State.memoryEnable, State.loadValue, hd, h] <;> rfl

@[simp] theorem State.memRead_regs (a : Word) : (s.memRead a).regs = s.regs := by rw [State.memRead_eq]
@[simp] theorem State.memRead_pc (a : Word) : (s.memRead a).pc = s.pc := by rw [State.memRead_eq]
@[simp] theorem State.memRead_ir (a : Word) : (s.memRead a).ir = s.ir := by rw [State.memRead_eq]
@[simp] theorem State.memRead_psr (a : Word) : (s.memRead a).psr = s.psr := by rw [State.memRead_eq]
@[simp] theorem State.memRead_mar (a : Word) : (s.memRead a).mar = a := by rw [State.memRead_eq]
@[simp] theorem State.memRead_mdr (a : Word) : (s.memRead a).mdr = s.loadValue a := by rw [State.memRead_eq]
@[simp] theorem State.memRead_bus (a : Word) : (s.memRead a).bus = s.loadValue a := by rw [State.memRead_eq]
@[simp] theorem State.memRead_mem (a : Word) : (s.memRead a).mem = s.mem := by rw [State.memRead_eq]
@[simp] theorem State.memRead_cfg (a : Word) : (s.memRead a).cfg = s.cfg := by rw [State.memRead_eq]
@[simp] theorem State.memRead_status (a : Word) : (s.memRead a).status = s.status := by rw [State.memRead_eq]
@[simp] theorem State.memRead_record (a : Word) : (s.memRead a).record = s.record := by rw [State.memRead_eq]
@[simp] theorem State.memRead_flags (a : Word) : (s.memRead a).flags = s.flags := by rw [State.memRead_eq]
@[simp] theorem State.memRead_deviceLog (a : Word) : (s.memRead a).deviceLog =
    if s.isDevice a then .read a (s.loadValue a) :: s.deviceLog else s.deviceLog := by
  rw [State.memRead_eq]
@[simp] theorem State.memRead_draws (a : Word) : (s.memRead a).draws = if s.isDevice a then s.draws + 1 else s.draws := by
  rw [State.memRead_eq]

/-! ### memWrite -/

/-- The whole effect of `MemWrite(a, 1, v)` (R64, R66). -/
theorem State.memWrite_eq (a v : Word) :
    s.memWrite a v =
      { s with
        mar := a
        mdr := v
        bus := v
        mem := if s.isDevice a then s.mem else s.mem.write a v
        deviceLog := if s.isDevice a then .write a v :: s.deviceLog else s.deviceLog } := by
  have hd : ((((s.driveBus a).loadMar).driveBus v).loadMdr).isDevice a = s.isDevice a := rfl
  cases h : s.isDevice a <;> simp [State.memWrite, State.memoryEnable, hd, h] <;> rfl

@[simp] theorem State.memWrite_regs (a v : Word) : (s.memWrite a v).regs = s.regs := by rw [State.memWrite_eq]
@[simp] theorem State.memWrite_pc (a v : Word) : (s.memWrite a v).pc = s.pc := by rw [State.memWrite_eq]
@[simp] theorem State.memWrite_ir (a v : Word) : (s.memWrite a v).ir = s.ir := by rw [State.memWrite_eq]
@[simp] theorem State.memWrite_psr (a v : Word) : (s.memWrite a v).psr = s.psr := by rw [State.memWrite_eq]
@[simp] theorem State.memWrite_mar (a v : Word) : (s.memWrite a v).mar = a := by rw [State.memWrite_eq]
@[simp] theorem State.memWrite_mdr (a v : Word) : (s.memWrite a v).mdr = v := by rw [State.memWrite_eq]
@[simp] theorem State.memWrite_bus (a v : Word) : (s.memWrite a v).bus = v := by rw [State.memWrite_eq]
@[simp] theorem State.memWrite_mem (a v : Word) : (s.memWrite a v).mem =
    if s.isDevice a then s.mem else s.mem.write a v := by
  rw [State.memWrite_eq]
@[simp] theorem State.memWrite_cfg (a v : Word) : (s.memWrite a v).cfg = s.cfg := by rw [State.memWrite_eq]
@[simp] theorem State.memWrite_status (a v : Word) : (s.memWrite a v).status = s.status := by rw [State.memWrite_eq]
@[simp] theorem State.memWrite_record (a v : Word) : (s.memWrite a v).record = s.record := by rw [State.memWrite_eq]
@[simp] theorem State.memWrite_flags (a v : Word) : (s.memWrite a v).flags = s.flags := by rw [State.memWrite_eq]
@[simp] theorem State.memWrite_deviceLog (a v : Word) : (s.memWrite a v).deviceLog =
    if s.isDevice a then .write a v :: s.deviceLog else s.deviceLog := by
  rw [State.memWrite_eq]
@[simp] theorem State.memWrite_draws (a v : Word) : (s.memWrite a v).draws = s.draws := by rw [State.memWrite_eq]

/-! ### fetch -/

/-- Fetch is a MemRead at the PC, with the PC incremented and the word loaded into the instruction register (R63, R131). -/
theorem State.fetch_eq : s.fetch = { s.memRead s.pc with pc := s.pc + 1, ir := s.loadValue s.pc } := by
  have hd : (((s.driveBus s.pc).loadMar).incrementPc).isDevice s.pc = s.isDevice s.pc := rfl
  rw [State.memRead_eq]
  cases h : s.isDevice s.pc <;> simp [State.fetch, State.memoryEnable, State.loadValue, hd, h] <;> rfl

@[simp] theorem State.fetch_regs : (s.fetch).regs = s.regs := by simp [State.fetch_eq]
@[simp] theorem State.fetch_pc : (s.fetch).pc = s.pc + 1 := by simp [State.fetch_eq]
@[simp] theorem State.fetch_ir : (s.fetch).ir = s.loadValue s.pc := by simp [State.fetch_eq]
@[simp] theorem State.fetch_psr : (s.fetch).psr = s.psr := by simp [State.fetch_eq]
@[simp] theorem State.fetch_mar : (s.fetch).mar = s.pc := by simp [State.fetch_eq]
@[simp] theorem State.fetch_mdr : (s.fetch).mdr = s.loadValue s.pc := by simp [State.fetch_eq]
@[simp] theorem State.fetch_bus : (s.fetch).bus = s.loadValue s.pc := by simp [State.fetch_eq]
@[simp] theorem State.fetch_mem : (s.fetch).mem = s.mem := by simp [State.fetch_eq]
@[simp] theorem State.fetch_cfg : (s.fetch).cfg = s.cfg := by simp [State.fetch_eq]
@[simp] theorem State.fetch_status : (s.fetch).status = s.status := by simp [State.fetch_eq]
@[simp] theorem State.fetch_record : (s.fetch).record = s.record := by simp [State.fetch_eq]
@[simp] theorem State.fetch_flags : (s.fetch).flags = s.flags := by simp [State.fetch_eq]
@[simp] theorem State.fetch_deviceLog : (s.fetch).deviceLog =
    if s.isDevice s.pc then .read s.pc (s.loadValue s.pc) :: s.deviceLog else s.deviceLog := by
  simp [State.fetch_eq]
@[simp] theorem State.fetch_draws : (s.fetch).draws = if s.isDevice s.pc then s.draws + 1 else s.draws := by
  simp [State.fetch_eq]

/-! ### beginStep -/

@[simp] theorem State.beginStep_regs : (s.beginStep).regs = s.regs := by simp [State.beginStep]
@[simp] theorem State.beginStep_pc : (s.beginStep).pc = s.pc + 1 := by simp [State.beginStep]
@[simp] theorem State.beginStep_ir : (s.beginStep).ir = s.loadValue s.pc := by simp [State.beginStep]
@[simp] theorem State.beginStep_psr : (s.beginStep).psr = s.psr := by simp [State.beginStep]
@[simp] theorem State.beginStep_mar : (s.beginStep).mar = s.pc := by simp [State.beginStep]
@[simp] theorem State.beginStep_mdr : (s.beginStep).mdr = s.loadValue s.pc := by simp [State.beginStep]
@[simp] theorem State.beginStep_bus : (s.beginStep).bus = s.loadValue s.pc := by simp [State.beginStep]
@[simp] theorem State.beginStep_mem : (s.beginStep).mem = s.mem := by simp [State.beginStep]
@[simp] theorem State.beginStep_cfg : (s.beginStep).cfg = s.cfg := by simp [State.beginStep]
@[simp] theorem State.beginStep_status : (s.beginStep).status = s.status := by simp [State.beginStep]
@[simp] theorem State.beginStep_record : (s.beginStep).record = some (recordOf s.pc (s.loadValue s.pc)) := by
  simp [State.beginStep, State.iaddr]
@[simp] theorem State.beginStep_flags : (s.beginStep).flags = s.flags := by simp [State.beginStep]
@[simp] theorem State.beginStep_deviceLog : (s.beginStep).deviceLog =
    if s.isDevice s.pc then .read s.pc (s.loadValue s.pc) :: s.deviceLog else s.deviceLog := by
  simp [State.beginStep]
@[simp] theorem State.beginStep_draws : (s.beginStep).draws = if s.isDevice s.pc then s.draws + 1 else s.draws := by
  simp [State.beginStep]

/-! ### Registers through the shared operations -/

@[simp] theorem State.memRead_reg (a : Word) (r : Reg) : (s.memRead a).reg r = s.reg r :=
  State.reg_congr (s.memRead_regs a) r

@[simp] theorem State.memWrite_reg (a v : Word) (r : Reg) : (s.memWrite a v).reg r = s.reg r :=
  State.reg_congr (s.memWrite_regs a v) r

@[simp] theorem State.fetch_reg (r : Reg) : s.fetch.reg r = s.reg r := State.reg_congr s.fetch_regs r

@[simp] theorem State.beginStep_reg (r : Reg) : s.beginStep.reg r = s.reg r := State.reg_congr s.beginStep_regs r

@[simp] theorem State.memRead_isDevice (a b : Word) : (s.memRead a).isDevice b = s.isDevice b :=
  State.isDevice_congr (s.memRead_cfg a) b

@[simp] theorem State.beginStep_isDevice (b : Word) : s.beginStep.isDevice b = s.isDevice b :=
  State.isDevice_congr s.beginStep_cfg b

/-- At an ordinary address a core read gives the cell (R62). -/
theorem State.loadValue_array {a : Word} (h : s.isDevice a = false) : s.loadValue a = s.mem.read a := by
  simp [State.loadValue, h]

/-- After the fetch the address of the instruction is the PC the step began with (R133). -/
@[simp] theorem State.beginStep_iaddr : s.beginStep.iaddr = s.pc := by simp [State.iaddr]

/-! ### How a step ends -/

/-- Every ordinary meaning ends in a next state that reports OK. -/
@[simp] theorem State.finish_eq (f : Classification) : s.finish f = .next (s.report .ok f) := rfl

/-- Every error kind ends the step in a next state that reports it. -/
@[simp] theorem State.raise_eq (e : Status) : s.raise e = .next (s.report e Classification.none) := rfl

@[simp] theorem State.decodeFailure_eq (e : Status) :
    s.decodeFailure e = .next ((s.writePc s.iaddr).report e Classification.none) := rfl

/-- The end of every instruction that produces a value. -/
@[simp] theorem State.writeResult_eq (dr : Reg) (v : Word) :
    s.writeResult dr v = .next (((s.writeReg dr v).setcc v).report .ok Classification.none) := by
  simp [State.writeResult]

/-- The end of every load. -/
theorem State.loadFrom_eq (dr : Reg) (ea : Word) :
    s.loadFrom dr ea =
      .next ((((s.memRead ea).writeReg dr (s.loadValue ea)).setcc (s.loadValue ea)).report .ok Classification.none) := by
  simp [State.loadFrom]

/-- The end of every store. -/
theorem State.storeTo_eq (sr : Reg) (ea : Word) :
    s.storeTo sr ea = .next ((s.memWrite ea (s.reg sr)).report .ok Classification.none) := rfl

/-- A jump through a register. -/
theorem State.jumpThrough_eq (base : Reg) :
    s.jumpThrough base = .next ((s.writePc (s.reg base)).report .ok
      (if base = .r7 then Classification.ofReturn else Classification.none)) := rfl

end Sys2Proof.Machine
end

