-- ==== Sys2Proof/Laws/Results.lean ====
section
/-! SUPPORT. The shared operations in the terms of Safety.lean, for the proofs to cite instead of unfolding them. -/

namespace Sys2Proof.Machine

/-- The codes that setcc leaves. -/
theorem State.setcc_codesOf (s : State) (v : Word) : CodesOf v s (s.setcc v) := by
  simp only [CodesOf, State.setcc_psr, psrWithCodes_getLsbD]
  obtain ⟨hn, hz, hp⟩ := conditionCodes_getLsbD v
  exact ⟨hn, hz, hp, fun k hk => if_neg (by omega)⟩

/-- The shared end of ADD, AND, NOT, LD, LDI, LDR and LEA produces its value. -/
theorem State.writeResult_produces (s : State) (dr : Reg) (v : Word) :
    ProducesResult dr v s (((s.writeReg dr v).setcc v).report .ok Classification.none) :=
  ⟨by simp, fun r hr => by simp [hr], State.setcc_codesOf _ v, by simp, by simp, ⟨by simp, by simp, by simp⟩, by simp⟩

/-- The shared end of ADD, AND, NOT and LEA makes no memory access. -/
theorem State.writeResult_noAccess (s : State) (dr : Reg) (v : Word) :
    NoAccess s (((s.writeReg dr v).setcc v).report .ok Classification.none) :=
  ⟨rfl, rfl, fun _ => rfl, rfl, rfl⟩

/-- A result produced after a read of memory is one produced from the state before it. -/
theorem ProducesResult.of_memRead {s t : State} {a : Word} {dr : Reg} {v : Word}
    (h : ProducesResult dr v (s.memRead a) t) : ProducesResult dr v s t := by
  simpa [ProducesResult, RegsKeptBut, CodesOf, CycleKept] using h

/-- MemRead's transaction, if any (R66). -/
theorem State.memRead_port (s : State) (a : Word) : PortAfterRead a (s.loadValue a) s (s.memRead a) := by
  unfold PortAfterRead PortKept
  cases h : s.isDevice a <;> simp [h]

/-- A store writes its one cell, or delivers to the platform (R64, R66). -/
theorem State.memWrite_stores (s : State) (a v : Word) (e : Status) (f : Classification) :
    Stores a v s ((s.memWrite a v).report e f) := by
  refine ⟨fun b => ?_, by simp, by simp⟩
  cases h : s.isDevice a <;> simp [h]

/-- A store changes nothing but memory, mar, mdr and the bus. -/
theorem State.memWrite_storesOnly (s : State) (a v : Word) (f : Classification) :
    StoresOnly a v s ((s.memWrite a v).report .ok f) :=
  ⟨by simp, by simp, by simp, fun r => by simp, by simp, by simp, ⟨by simp, by simp, by simp⟩, rfl⟩

/-- Writing the link register (R186). -/
theorem State.link_reg (s : State) (r : Reg) : s.link.reg r = if r = .r7 then s.pc else s.reg r := by
  simp [State.link]

/-- The link write does not change what a core read gives. -/
theorem State.link_loadValue (s : State) (a : Word) : s.link.loadValue a = s.loadValue a :=
  State.loadValue_congr rfl rfl rfl rfl a

/-- The whole effect of RTI's pop (R233). -/
theorem State.popFrame_eq (s : State) (w0 : Word) :
    s.popFrame w0 =
      { s.memRead (s.reg .r6 + 1) with
        pc := w0
        psr := s.loadValue (s.reg .r6 + 1)
        regs := s.regs.set .r6 (s.reg .r6 + 2)
        bus := s.reg .r6 + 2 } := by
  have hv : ((s.writePc w0).writeReg .r6 (s.reg .r6 + 1)).loadValue (s.reg .r6 + 1) = s.loadValue (s.reg .r6 + 1) :=
    State.loadValue_congr rfl rfl rfl rfl _
  have hd : ((s.writePc w0).writeReg .r6 (s.reg .r6 + 1)).isDevice (s.reg .r6 + 1) = s.isDevice (s.reg .r6 + 1) := rfl
  simp only [State.popFrame, State.writePc_reg, State.writeReg_reg, if_true, State.memRead_eq, State.writePsr_reg, hv, hd]
  simp [State.writePsr, State.writeReg, State.writePc, State.driveBus, State.loadReg, State.loadPc, State.loadPsr, State.reg,
    RegFile.get, RegFile.set, BitVec.add_assoc]

end Sys2Proof.Machine
end

