-- ==== Sys2Proof/Laws/Exec.lean ====
section
/-! SUPPORT. The next state of every instruction, one equation each, and the step by the decoder's verdict. -/

namespace Sys2Proof.Machine

open Sys2Proof.Config

theorem exec_addReg (dr sr1 sr2 : Reg) (s : State) :
    exec (.addReg dr sr1 sr2) s = s.writeResult dr (s.reg sr1 + s.reg sr2) := rfl

theorem exec_addImm (dr sr1 : Reg) (imm5 : BitVec 5) (s : State) :
    exec (.addImm dr sr1 imm5) s = s.writeResult dr (s.reg sr1 + sext16 imm5) := rfl

theorem exec_andReg (dr sr1 sr2 : Reg) (s : State) :
    exec (.andReg dr sr1 sr2) s = s.writeResult dr (s.reg sr1 &&& s.reg sr2) := rfl

theorem exec_andImm (dr sr1 : Reg) (imm5 : BitVec 5) (s : State) :
    exec (.andImm dr sr1 imm5) s = s.writeResult dr (s.reg sr1 &&& sext16 imm5) := rfl

theorem exec_not (dr sr1 : Reg) (s : State) : exec (.not dr sr1) s = s.writeResult dr (~~~(s.reg sr1)) := rfl

theorem exec_lea (dr : Reg) (offset9 : BitVec 9) (s : State) :
    exec (.lea dr offset9) s = s.writeResult dr (s.pc + sext16 offset9) := rfl

theorem exec_ld (dr : Reg) (offset9 : BitVec 9) (s : State) :
    exec (.ld dr offset9) s = s.loadFrom dr (s.pc + sext16 offset9) := rfl

theorem exec_ldr (dr base : Reg) (offset6 : BitVec 6) (s : State) :
    exec (.ldr dr base offset6) s = s.loadFrom dr (s.reg base + sext16 offset6) := rfl

theorem exec_ldi (dr : Reg) (offset9 : BitVec 9) (s : State) :
    exec (.ldi dr offset9) s =
      (s.memRead (s.pc + sext16 offset9)).loadFrom dr (s.loadValue (s.pc + sext16 offset9)) := by
  simp [exec, execLdi, State.readPointer, State.pcRelative9]

theorem exec_st (sr : Reg) (offset9 : BitVec 9) (s : State) :
    exec (.st sr offset9) s = s.storeTo sr (s.pc + sext16 offset9) := rfl

theorem exec_str (sr base : Reg) (offset6 : BitVec 6) (s : State) :
    exec (.str sr base offset6) s = s.storeTo sr (s.reg base + sext16 offset6) := rfl

theorem exec_sti (sr : Reg) (offset9 : BitVec 9) (s : State) :
    exec (.sti sr offset9) s =
      (s.memRead (s.pc + sext16 offset9)).storeTo sr (s.loadValue (s.pc + sext16 offset9)) := by
  simp [exec, execSti, State.readPointer, State.pcRelative9]

theorem exec_br_taken {nzp : BitVec 3} {s : State} (h : s.branchTaken nzp = true) (offset9 : BitVec 9) :
    exec (.br nzp offset9) s = .next ((s.writePc (s.pc + sext16 offset9)).report .ok Classification.none) := by
  simp [exec, execBr, h, State.pcRelative9]

theorem exec_br_not_taken {nzp : BitVec 3} {s : State} (h : s.branchTaken nzp = false) (offset9 : BitVec 9) :
    exec (.br nzp offset9) s = .next (s.report .ok Classification.none) := by
  simp [exec, execBr, h]

/-- The branch test bit by bit (R180, R182). -/
theorem State.branchTaken_iff (s : State) (nzp : BitVec 3) :
    s.branchTaken nzp = true ↔
      (nzp.getLsbD 2 = true ∧ s.psr.getLsbD 2 = true) ∨ (nzp.getLsbD 1 = true ∧ s.psr.getLsbD 1 = true) ∨
        (nzp.getLsbD 0 = true ∧ s.psr.getLsbD 0 = true) ∨ (nzp = 0 ∧ s.cfg.brZeroMaskTaken = true) := by
  have h0 : (s.psr.extractLsb' 0 3).getLsbD 0 = s.psr.getLsbD 0 := by simp
  have h1 : (s.psr.extractLsb' 0 3).getLsbD 1 = s.psr.getLsbD 1 := by simp
  have h2 : (s.psr.extractLsb' 0 3).getLsbD 2 = s.psr.getLsbD 2 := by simp
  unfold State.branchTaken State.cc
  rw [← h0, ← h1, ← h2]
  generalize s.psr.extractLsb' 0 3 = c
  generalize s.cfg.brZeroMaskTaken = z
  revert nzp c z
  decide

theorem exec_jmp (ignored : BitVec 3) (base : Reg) (s : State) : exec (.jmp ignored base) s = s.jumpThrough base := rfl

theorem exec_ret (ignored : BitVec 3) (s : State) : exec (.ret ignored) s = s.jumpThrough .r7 := rfl

theorem exec_jsr (offset11 : BitVec 11) (s : State) :
    exec (.jsr offset11) s = .next ((s.link.writePc (s.pc + sext16 offset11)).report .ok Classification.ofCall) := rfl

theorem exec_jsrr (ignored : BitVec 2) (base : Reg) (s : State) :
    exec (.jsrr ignored base) s = .next ((s.link.writePc (s.jsrrTarget base)).report .ok Classification.ofCall) := rfl

/-- JSRR's target under either order: they differ for R7 alone (R187, R188). -/
theorem State.jsrrTarget_eq (s : State) (base : Reg) :
    s.jsrrTarget base =
      match s.cfg.jsrrLinkOrder with
      | .readBaseFirst => s.reg base
      | .linkFirst => if base = .r7 then s.pc else s.reg base := by
  unfold State.jsrrTarget
  by_cases h : base = .r7
  · subst h
    cases s.cfg.jsrrLinkOrder <;> rfl
  · cases s.cfg.jsrrLinkOrder <;> simp [h]

theorem exec_trap (trapvect8 : BitVec 8) (s : State) :
    exec (.trap trapvect8) s =
      .next (((s.link.memRead (zext16 trapvect8)).writePc (s.loadValue (zext16 trapvect8))).report .ok
        Classification.ofCall) := by
  simp [exec, execTrap, trapVectorAddress, State.link_loadValue]

/-- RTI when its check passes (R232, R233). -/
theorem exec_rti_allowed {s : State} (h : rtiAllowed s = true) :
    exec .rti s =
      .next (((s.memRead (s.reg .r6)).popFrame (s.loadValue (s.reg .r6))).report .ok Classification.none) := by
  unfold rtiAllowed at h
  cases hc : s.cfg.rtiPrivCheck <;> simp only [exec, execRti, hc, Bool.not_eq_true'] at h ⊢
  · rw [State.memRead_bus, h]
    rfl
  · rw [h, State.memRead_bus]
    rfl

/-- RTI when its check fails under StackWord: the word at R6 has been read, nothing is popped (R234). -/
theorem exec_rti_stackWord_violation {s : State} (hc : s.cfg.rtiPrivCheck = .stackWord)
    (h : (s.loadValue (s.reg .r6)).getLsbD 15 = true) :
    exec .rti s = .next ((s.memRead (s.reg .r6)).report .privilegeViolation Classification.none) := by
  simp only [exec, execRti, hc]
  rw [State.memRead_bus, h]
  rfl

/-- RTI when its check fails under PsrMode: no read, nothing is popped (R234). -/
theorem exec_rti_psrMode_violation {s : State} (hc : s.cfg.rtiPrivCheck = .psrMode) (h : s.psr.getLsbD 15 = true) :
    exec .rti s = .next (s.report .privilegeViolation Classification.none) := by
  simp only [exec, execRti, hc]
  rw [h]
  rfl

theorem exec_reserved (payload : BitVec 12) (s : State) :
    exec (.reserved payload) s = .next ((s.writePc s.iaddr).report .reservedOpcode Classification.none) := rfl

/-- A step by the decoder's verdict on the word a core read at the PC gives (R130). -/
theorem step_eq (s : State) :
    step s =
      match decode (s.loadValue s.pc) with
      | .valid i => exec i s.beginStep
      | .invalid _ => .next ((s.beginStep.writePc s.pc).report .decodeInvalid Classification.none) := by
  unfold step
  rw [State.beginStep_ir]
  cases decode (s.loadValue s.pc) <;> simp

end Sys2Proof.Machine
end

