-- ==== Sys2Proof/Laws/HostOps.lean ====
section
/-! SUPPORT. What the host operations do, field by field. -/

namespace Sys2Proof.Machine

variable (s : State)

@[simp] theorem hostReset_regs : (hostReset s).regs = State.reset.regs := rfl
@[simp] theorem hostReset_pc : (hostReset s).pc = State.reset.pc := rfl
@[simp] theorem hostReset_ir : (hostReset s).ir = State.reset.ir := rfl
@[simp] theorem hostReset_psr : (hostReset s).psr = State.reset.psr := rfl
@[simp] theorem hostReset_mar : (hostReset s).mar = State.reset.mar := rfl
@[simp] theorem hostReset_mdr : (hostReset s).mdr = State.reset.mdr := rfl
@[simp] theorem hostReset_bus : (hostReset s).bus = State.reset.bus := rfl
@[simp] theorem hostReset_mem : (hostReset s).mem = State.reset.mem := rfl
@[simp] theorem hostReset_cfg : (hostReset s).cfg = s.cfg := rfl
@[simp] theorem hostReset_status : (hostReset s).status = State.reset.status := rfl
@[simp] theorem hostReset_record : (hostReset s).record = State.reset.record := rfl
@[simp] theorem hostReset_flags : (hostReset s).flags = State.reset.flags := rfl
@[simp] theorem hostReset_deviceLog : (hostReset s).deviceLog = s.deviceLog := rfl
@[simp] theorem hostReset_draws : (hostReset s).draws = s.draws := rfl

/-- The index names a register exactly when it is below 8 (R150). -/
theorem hostReg_eq_some {i : Nat} (h : i < 8) : ∃ r, hostReg i = some r ∧ r.toBits.toNat = i := by
  revert i; decide

theorem hostReg_eq_none {i : Nat} (h : 8 ≤ i) : hostReg i = none := by
  unfold hostReg; split <;> first | omega | rfl

/-- What set_register can do: write the register the index names and nothing else. -/
theorem hostSetRegister_next {i : Nat} {v : Word} {s t : State} (h : hostSetRegister i v s = .next t) :
    ∃ r, hostReg i = some r ∧ t = { s with regs := s.regs.set r v } := by
  unfold hostSetRegister at h
  split at h
  · cases h; exact ⟨_, ‹_›, rfl⟩
  · cases h

end Sys2Proof.Machine
end

