-- ==== Sys2Proof/Laws/PerInstr.lean ====
section
/-! SUPPORT. The family Encoding of LAWS.json, one lemma per instruction: its word carries its row's opcode. -/

namespace Sys2Proof.Laws

/-- The opcode of an instruction's row (R95). -/
def rowOpcode : Instr → Opcode
  | .br _ _ => .br
  | .addReg _ _ _ => .add
  | .addImm _ _ _ => .add
  | .ld _ _ => .ld
  | .st _ _ => .st
  | .jsr _ => .jsr
  | .jsrr _ _ => .jsr
  | .andReg _ _ _ => .and
  | .andImm _ _ _ => .and
  | .ldr _ _ _ => .ldr
  | .str _ _ _ => .str
  | .rti => .rti
  | .not _ _ => .not
  | .ldi _ _ => .ldi
  | .sti _ _ => .sti
  | .jmp _ _ => .jmp
  | .ret _ => .jmp
  | .reserved _ => .reserved
  | .lea _ _ => .lea
  | .trap _ => .trap

/-- Bits 15:12 of the instruction's word are its row's opcode (R90, R95). -/
def Encoding.Statement (i : Instr) : Prop := (encode i).extractLsb' 12 4 = (rowOpcode i).toBits

theorem Encoding.br (nzp : BitVec 3) (offset9 : BitVec 9) : Encoding.Statement (.br nzp offset9) := by
  unfold Encoding.Statement encode
  iterate 2 rw [BitVec.extractLsb'_append_eq_of_le (by decide)]
  rfl

theorem Encoding.addReg (dr sr1 sr2 : Reg) : Encoding.Statement (.addReg dr sr1 sr2) := by
  unfold Encoding.Statement encode
  iterate 4 rw [BitVec.extractLsb'_append_eq_of_le (by decide)]
  rfl

theorem Encoding.addImm (dr sr1 : Reg) (imm5 : BitVec 5) : Encoding.Statement (.addImm dr sr1 imm5) := by
  unfold Encoding.Statement encode
  iterate 4 rw [BitVec.extractLsb'_append_eq_of_le (by decide)]
  rfl

theorem Encoding.ld (dr : Reg) (offset9 : BitVec 9) : Encoding.Statement (.ld dr offset9) := by
  unfold Encoding.Statement encode
  iterate 2 rw [BitVec.extractLsb'_append_eq_of_le (by decide)]
  rfl

theorem Encoding.st (sr : Reg) (offset9 : BitVec 9) : Encoding.Statement (.st sr offset9) := by
  unfold Encoding.Statement encode
  iterate 2 rw [BitVec.extractLsb'_append_eq_of_le (by decide)]
  rfl

theorem Encoding.jsr (offset11 : BitVec 11) : Encoding.Statement (.jsr offset11) := by
  unfold Encoding.Statement encode
  iterate 2 rw [BitVec.extractLsb'_append_eq_of_le (by decide)]
  rfl

theorem Encoding.jsrr (ignored : BitVec 2) (base : Reg) : Encoding.Statement (.jsrr ignored base) := by
  unfold Encoding.Statement encode
  iterate 4 rw [BitVec.extractLsb'_append_eq_of_le (by decide)]
  rfl

theorem Encoding.andReg (dr sr1 sr2 : Reg) : Encoding.Statement (.andReg dr sr1 sr2) := by
  unfold Encoding.Statement encode
  iterate 4 rw [BitVec.extractLsb'_append_eq_of_le (by decide)]
  rfl

theorem Encoding.andImm (dr sr1 : Reg) (imm5 : BitVec 5) : Encoding.Statement (.andImm dr sr1 imm5) := by
  unfold Encoding.Statement encode
  iterate 4 rw [BitVec.extractLsb'_append_eq_of_le (by decide)]
  rfl

theorem Encoding.ldr (dr base : Reg) (offset6 : BitVec 6) : Encoding.Statement (.ldr dr base offset6) := by
  unfold Encoding.Statement encode
  iterate 3 rw [BitVec.extractLsb'_append_eq_of_le (by decide)]
  rfl

theorem Encoding.str (sr base : Reg) (offset6 : BitVec 6) : Encoding.Statement (.str sr base offset6) := by
  unfold Encoding.Statement encode
  iterate 3 rw [BitVec.extractLsb'_append_eq_of_le (by decide)]
  rfl

theorem Encoding.rti : Encoding.Statement .rti := rfl

theorem Encoding.not (dr sr1 : Reg) : Encoding.Statement (.not dr sr1) := by
  unfold Encoding.Statement encode
  iterate 3 rw [BitVec.extractLsb'_append_eq_of_le (by decide)]
  rfl

theorem Encoding.ldi (dr : Reg) (offset9 : BitVec 9) : Encoding.Statement (.ldi dr offset9) := by
  unfold Encoding.Statement encode
  iterate 2 rw [BitVec.extractLsb'_append_eq_of_le (by decide)]
  rfl

theorem Encoding.sti (sr : Reg) (offset9 : BitVec 9) : Encoding.Statement (.sti sr offset9) := by
  unfold Encoding.Statement encode
  iterate 2 rw [BitVec.extractLsb'_append_eq_of_le (by decide)]
  rfl

theorem Encoding.jmp (ignored : BitVec 3) (base : Reg) : Encoding.Statement (.jmp ignored base) := by
  unfold Encoding.Statement encode
  iterate 3 rw [BitVec.extractLsb'_append_eq_of_le (by decide)]
  rfl

theorem Encoding.ret (ignored : BitVec 3) : Encoding.Statement (.ret ignored) := by
  unfold Encoding.Statement encode
  iterate 3 rw [BitVec.extractLsb'_append_eq_of_le (by decide)]
  rfl

theorem Encoding.reserved (payload : BitVec 12) : Encoding.Statement (.reserved payload) := by
  unfold Encoding.Statement encode
  iterate 1 rw [BitVec.extractLsb'_append_eq_of_le (by decide)]
  rfl

theorem Encoding.lea (dr : Reg) (offset9 : BitVec 9) : Encoding.Statement (.lea dr offset9) := by
  unfold Encoding.Statement encode
  iterate 2 rw [BitVec.extractLsb'_append_eq_of_le (by decide)]
  rfl

theorem Encoding.trap (trapvect8 : BitVec 8) : Encoding.Statement (.trap trapvect8) := by
  unfold Encoding.Statement encode
  iterate 2 rw [BitVec.extractLsb'_append_eq_of_le (by decide)]
  rfl

end Sys2Proof.Laws
end

