-- ==== Sys2Proof/Tests/Slice0.lean ====
section
/-! SUPPORT. The model's own tests. Expected results are those of 95_test_vectors.md (the vector's id stands before a test)
or read off the formats of 30_encoding.md; then one witness for the hypotheses of each statement. -/

namespace Sys2Proof.Tests

open Sys2Proof Sys2Proof.Machine Sys2Proof.Config

/-! ### Helpers -/

/-- A state after reset but for the PC, the PSR and the listed registers and cells. -/
def start (pc psr : Word) (regs : List (Reg × Word)) (cells : List (Word × Word)) : State :=
  { State.reset with
    pc := pc
    psr := psr
    regs := regs.foldl (fun f c => f.set c.1 c.2) State.reset.regs
    mem := cells.foldl (fun m c => m.write c.1 c.2) [] }

/-- The same state with other parameters. -/
def withParams (s : State) (f : Params → Params) : State := { s with cfg := f s.cfg }

/-- The state a step answers. -/
def after (s : State) : State :=
  match step s with
  | .next t => t
  | .fault _ => s
  | .refused _ => s

/-- One step of `s` ends with this status, PC and PSR, and with the listed registers and cells. -/
def ends (s : State) (e : Status) (pc psr : Word) (regs : List (Reg × Word)) (cells : List (Word × Word)) : Bool :=
  match step s with
  | .next t => decide (t.status = e) && decide (t.pc = pc) && decide (t.psr = psr) &&
      regs.all (fun c => decide (t.reg c.1 = c.2)) && cells.all (fun c => decide (t.mem.read c.1 = c.2))
  | .fault _ => false
  | .refused _ => false

/-- The flags one step of `s` reports. -/
def flagsAfter (s : State) : Bool × Bool := ((after s).flags.subroutineEntry, (after s).flags.subroutineReturn)

/-! ### WellFormed: each check refuses an ill-formed term -/

theorem test_wellFormed_refuses_jmp_r7 : Instr.wellFormed (.jmp 0b000 .r7) = false := by decide
theorem test_wellFormed_takes_jmp_r6 : Instr.wellFormed (.jmp 0b111 .r6) = true := by decide

/-! ### Decode: one word per constructor, its bits written from the formats R96 to R104 -/

theorem test_decode_br : decode 0b0000101100000001 = .valid (.br 0b101 0b100000001) := by decide
theorem test_decode_addReg : decode 0b0001010000000001 = .valid (.addReg .r2 .r0 .r1) := by decide
theorem test_decode_addImm : decode 0b0001001010110000 = .valid (.addImm .r1 .r2 0b10000) := by decide
theorem test_decode_ld : decode 0b0010011111111110 = .valid (.ld .r3 0b111111110) := by decide
theorem test_decode_st : decode 0b0011100000000011 = .valid (.st .r4 0b000000011) := by decide
theorem test_decode_jsr : decode 0b0100110000000001 = .valid (.jsr 0b10000000001) := by decide
theorem test_decode_jsrr : decode 0b0100010101000000 = .valid (.jsrr 0b10 .r5) := by decide
theorem test_decode_andReg : decode 0b0101110111000010 = .valid (.andReg .r6 .r7 .r2) := by decide
theorem test_decode_andImm : decode 0b0101000001101111 = .valid (.andImm .r0 .r1 0b01111) := by decide
theorem test_decode_ldr : decode 0b0110011100111110 = .valid (.ldr .r3 .r4 0b111110) := by decide
theorem test_decode_str : decode 0b0111010110111111 = .valid (.str .r2 .r6 0b111111) := by decide
theorem test_decode_rti : decode 0b1000000000000000 = .valid .rti := by decide
theorem test_decode_not : decode 0b1001000111111111 = .valid (.not .r0 .r7) := by decide
theorem test_decode_ldi : decode 0b1010101100000000 = .valid (.ldi .r5 0b100000000) := by decide
theorem test_decode_sti : decode 0b1011010000000001 = .valid (.sti .r2 0b000000001) := by decide
theorem test_decode_jmp : decode 0b1100111010000000 = .valid (.jmp 0b111 .r2) := by decide
theorem test_decode_ret : decode 0b1100000111000000 = .valid (.ret 0b000) := by decide
theorem test_decode_reserved : decode 0b1101000000000001 = .valid (.reserved 0b000000000001) := by decide
theorem test_decode_lea : decode 0b1110111011111111 = .valid (.lea .r7 0b011111111) := by decide
theorem test_decode_trap : decode 0b1111000000100101 = .valid (.trap 0b00100101) := by decide

/-- The words of V-OP-18, V-OP-19, V-JSRR-3, V-RTI-08, V-OP-21, V-JMP-3 and V-TR-05. -/
theorem test_decode_rejects :
    decode 0x1410 = .invalid .operateBits ∧ decode 0x5058 = .invalid .operateBits ∧ decode 0x40C1 = .invalid .jsrrBits ∧
      decode 0x8001 = .invalid .rtiBits ∧ decode 0x927E = .invalid .notBits ∧ decode 0xC081 = .invalid .jmpBits ∧
      decode 0xF125 = .invalid .trapBits := by decide

theorem test_decodeTableWord : decodeTableWord 16 0x1401 = some (.addReg .r2 .r0 .r1) := by decide
theorem test_decodeTableWord_refuses : decodeTableWord 16 0x8001 = none := by decide

/-- Section 2.6, the record of 0x1025 at 0x3000. -/
theorem test_record : recordOf 0x3000 0x1025 =
    ⟨0x3000, 0x1025, .add, .r0, .r0, .r5, true, false, 0x0005, 0xFFE5, 0x0025, 0x0025⟩ := by decide

/-- Section 2.6, the record of 0x1408 at 0x3000. -/
theorem test_record_of_invalid : recordOf 0x3000 0x1408 =
    ⟨0x3000, 0x1408, .add, .r2, .r0, .r0, false, false, 0x0008, 0x0008, 0x0008, 0xFC08⟩ := by decide

/-! ### Operate -/

/-- V-OP-03. -/
theorem test_addReg_wraps :
    ends (start 0x3000 0x0002 [(.r0, 0x8000), (.r1, 0xFFFF)] [(0x3000, 0x1401)])
      .ok 0x3001 0x0001 [(.r2, 0x7FFF), (.r0, 0x8000)] [] = true := by decide

/-- V-OP-17. -/
theorem test_addReg_invalid :
    ends (start 0x3000 0x0002 [(.r0, 0x0001), (.r1, 0x0001)] [(0x3000, 0x1408)])
      .decodeInvalid 0x3000 0x0002 [(.r2, 0x0000)] [] = true := by decide

/-- V-OP-05. -/
theorem test_addImm_sign_extends :
    ends (start 0x3000 0x0002 [] [(0x3000, 0x127F)]) .ok 0x3001 0x0004 [(.r1, 0xFFFF)] [] = true := by decide

/-- V-FE-01. -/
theorem test_addImm_at_the_top :
    ends (start 0xFFFF 0x0002 [] [(0xFFFF, 0x1021)]) .ok 0x0000 0x0001 [(.r0, 0x0001)] [] = true := by decide

/-- V-OP-10. -/
theorem test_andReg :
    ends (start 0x3000 0x0002 [(.r1, 0xFFFF), (.r2, 0x8001)] [(0x3000, 0x5042)])
      .ok 0x3001 0x0004 [(.r0, 0x8001)] [] = true := by decide

/-- V-OP-13. -/
theorem test_andImm_sign_extends :
    ends (start 0x3000 0x0002 [(.r1, 0x800F)] [(0x3000, 0x5070)]) .ok 0x3001 0x0004 [(.r0, 0x8000)] [] = true := by decide

/-- V-OP-15. -/
theorem test_not_to_zero :
    ends (start 0x3000 0x0002 [(.r1, 0xFFFF)] [(0x3000, 0x927F)]) .ok 0x3001 0x0002 [(.r1, 0x0000)] [] = true := by decide

/-! ### Control -/

/-- V-BR-wrap. -/
theorem test_br_wraps : ends (start 0xFFFF 0x0001 [] [(0xFFFF, 0x0E02)]) .ok 0x0002 0x0001 [] [] = true := by decide

/-- V-BR-z-N. -/
theorem test_br_not_taken : ends (start 0x3000 0x0004 [] [(0x3000, 0x0405)]) .ok 0x3001 0x0004 [] [] = true := by decide

/-- V-JMP-2. -/
theorem test_jmp :
    ends (start 0x3000 0x0002 [(.r2, 0x1234)] [(0x3000, 0xCE80)]) .ok 0x1234 0x0002 [] [] = true := by decide

/-- V-RET-1. -/
theorem test_ret :
    ends (start 0x3000 0x0002 [(.r7, 0x3456)] [(0x3000, 0xC1C0)]) .ok 0x3456 0x0002 [(.r7, 0x3456)] [] = true ∧
      flagsAfter (start 0x3000 0x0002 [(.r7, 0x3456)] [(0x3000, 0xC1C0)]) = (false, true) := by decide

/-- V-JSR-1. -/
theorem test_jsr :
    ends (start 0x3000 0x0002 [] [(0x3000, 0x4C00)]) .ok 0x2C01 0x0002 [(.r7, 0x3001)] [] = true ∧
      flagsAfter (start 0x3000 0x0002 [] [(0x3000, 0x4C00)]) = (true, false) := by decide

/-- V-JSRR-4. -/
theorem test_jsrr_r7_base_first :
    ends (withParams (start 0x3000 0x0002 [(.r7, 0x6000)] [(0x3000, 0x41C0)])
        (fun p => { p with jsrrLinkOrder := .readBaseFirst }))
      .ok 0x6000 0x0002 [(.r7, 0x3001)] [] = true := by decide

/-- V-JSRR-5. -/
theorem test_jsrr_r7_link_first :
    ends (withParams (start 0x3000 0x0002 [(.r7, 0x6000)] [(0x3000, 0x41C0)])
        (fun p => { p with jsrrLinkOrder := .linkFirst }))
      .ok 0x3001 0x0002 [(.r7, 0x3001)] [] = true := by decide

/-! ### Loads, stores and LEA -/

/-- V-LS-02. -/
theorem test_ld_its_own_word :
    ends (start 0x3000 0x0002 [] [(0x3000, 0x21FF)]) .ok 0x3001 0x0001 [(.r0, 0x21FF)] [] = true := by decide

/-- V-LS-05. -/
theorem test_ldi :
    ends (start 0x3000 0x0002 [] [(0x3000, 0xA201), (0x3002, 0x8000), (0x8000, 0xFFFF)])
      .ok 0x3001 0x0004 [(.r1, 0xFFFF)] [] = true := by decide

/-- V-LS-06. -/
theorem test_ldr_into_its_base :
    ends (start 0x3000 0x0002 [(.r2, 0x4000)] [(0x3000, 0x6480), (0x4000, 0x0042)])
      .ok 0x3001 0x0001 [(.r2, 0x0042)] [] = true := by decide

/-- V-LS-07. -/
theorem test_ldr_wraps :
    ends (start 0x3000 0x0002 [(.r0, 0x0010)] [(0x3000, 0x6220), (0xFFF0, 0xABCD)])
      .ok 0x3001 0x0004 [(.r1, 0xABCD)] [] = true := by decide

/-- V-LS-11. -/
theorem test_lea_reads_no_memory :
    ends (start 0x3000 0x0002 [] [(0x3000, 0xEEFF), (0x3100, 0x9999)])
      .ok 0x3001 0x0001 [(.r7, 0x3100)] [(0x3100, 0x9999)] = true := by decide

/-- V-LS-12. -/
theorem test_st_over_itself :
    ends (start 0x3000 0x0002 [(.r0, 0x1234)] [(0x3000, 0x31FF)])
      .ok 0x3001 0x0002 [(.r0, 0x1234)] [(0x3000, 0x1234)] = true := by decide

/-- V-LS-15. -/
theorem test_sti :
    ends (start 0x3000 0x0001 [(.r3, 0x8000)] [(0x3000, 0xB601), (0x3002, 0x4000)])
      .ok 0x3001 0x0001 [] [(0x4000, 0x8000), (0x3002, 0x4000)] = true := by decide

/-- V-LS-17. -/
theorem test_str_wraps :
    ends (start 0x3000 0x0004 [(.r2, 0x0707)] [(0x3000, 0x75BF)])
      .ok 0x3001 0x0004 [] [(0xFFFF, 0x0707)] = true := by decide

/-! ### System -/

/-- V-TR-06. -/
theorem test_trap_in_user_mode :
    ends (start 0x3000 0x8001 [] [(0x3000, 0xF025), (0x0025, 0x0400)])
      .ok 0x0400 0x8001 [(.r7, 0x3001)] [] = true := by decide

/-- V-RTI-06. -/
theorem test_rti_wraps_the_stack :
    ends (start 0x4000 0x0002 [(.r6, 0xFFFF)] [(0x4000, 0x8000), (0xFFFF, 0x3000), (0x0000, 0x0001)])
      .ok 0x3000 0x0001 [(.r6, 0x0001)] [] = true := by decide

/-- V-RTI-02. -/
theorem test_rti_violation :
    ends (start 0x3000 0x0002 [(.r6, 0x2FFE)] [(0x3000, 0x8000), (0x2FFE, 0x8000), (0x2FFF, 0x0002)])
      .privilegeViolation 0x3001 0x0002 [(.r6, 0x2FFE)] [] = true := by decide

/-- V-RES-03. -/
theorem test_reserved_at_the_top :
    ends (start 0xFFFF 0x0002 [] [(0xFFFF, 0xD000)]) .reservedOpcode 0xFFFF 0x0002 [] [] = true := by decide

/-! ### Devices, host operations and the placing of a word -/

/-- V-IO-03. -/
theorem test_device_write :
    ends (start 0x3000 0x0002 [(.r1, 0x0041)] [(0x3000, 0xB201), (0x3002, 0xFE06)])
        .ok 0x3001 0x0002 [] [(0xFE06, 0x0000)] = true ∧
      (after (start 0x3000 0x0002 [(.r1, 0x0041)] [(0x3000, 0xB201), (0x3002, 0xFE06)])).deviceLog =
        [.write 0xFE06 0x0041] := by decide

/-- V-IO-02. -/
theorem test_device_as_memory :
    ends (withParams (start 0x3000 0x0002 [] [(0x3000, 0xA401), (0x3002, 0xFE02), (0xFE02, 0x0041)])
        (fun p => { p with ioMode := .asMemory }))
      .ok 0x3001 0x0001 [(.r2, 0x0041)] [] = true := by decide

/-- R142's table: the number each status reports. -/
theorem test_status_codes : Status.code .ok = 0 ∧ Status.code .decodeInvalid = 1 ∧ Status.code .reservedOpcode = 2 ∧
    Status.code .privilegeViolation = 3 := by decide

/-- V-H-01. -/
theorem test_reset : hostGetConditionCode State.reset = 0b010#3 ∧ hostGetMode State.reset = .supervisor := by decide

/-- V-H-02. -/
theorem test_step_after_reset : ends State.reset .ok 0x0001 0x0002 [] [] = true := by decide

/-- V-IO-06. -/
theorem test_host_memory_at_a_device_address :
    hostMemRead 0xFE06 (hostMemWrite 0xFE06 0x1234 State.reset) = 0x1234 ∧
      (hostMemWrite 0xFE06 0x1234 State.reset).deviceLog = [] := by decide

/-- Writing the unlisted value takes the cell out of the list again. -/
theorem test_memory_stays_canonical :
    Memory.write (Memory.write (Memory.write [] 0x4000 0x0001) 0x3000 0x0002) 0x4000 0x0000 = [(0x3000, 0x0002)] := by decide

/-- The placed word is the one the next step runs (V-OP-06's word at the reset PC). -/
theorem test_withFetchWord : ends (State.reset.withFetchWord 16 0x126F) .ok 0x0001 0x0001 [(.r1, 0x000F)] [] = true := by
  decide

/-- The same at a device address, where the placing also sets IO_MODE to AsMemory. -/
theorem test_withFetchWord_at_a_device_address :
    ends ((start 0xFE00 0x0002 [] []).withFetchWord 16 0x126F) .ok 0xFE01 0x0001 [(.r1, 0x000F)] [] = true := by decide

/-! ### Witnesses: a state and operands that meet the hypotheses of each statement -/

/-- `ADD R2, R0, R1` at 0x3000. -/
def addState : State := start 0x3000 0x0002 [(.r0, 0x8000), (.r1, 0xFFFF)] [(0x3000, 0x1401)]

/-- An ADD word that fails its check, at 0x3000. -/
def invalidState : State := start 0x3000 0x0002 [] [(0x3000, 0x1408)]

/-- The reserved opcode at 0x3000. -/
def reservedState : State := start 0x3000 0x0002 [] [(0x3000, 0xD000)]

/-- RTI at 0x3000 with a frame into user mode at R6 (V-RTI-01). -/
def rtiState : State := start 0x3000 0x0002 [(.r6, 0x2FFE)] [(0x3000, 0x8000), (0x2FFE, 0x3000), (0x2FFF, 0x8001)]

/-- RTI at 0x3000 whose stack word has bit 15 set (V-RTI-02). -/
def rtiHighState : State := start 0x3000 0x0002 [(.r6, 0x2FFE)] [(0x3000, 0x8000), (0x2FFE, 0x8000), (0x2FFF, 0x0002)]

/-- RTI_PRIV_CHECK = PsrMode. -/
def psrMode (s : State) : State := withParams s (fun p => { p with rtiPrivCheck := .psrMode })

/-- RTI in user mode (V-RTI-04). -/
def rtiUserState : State := psrMode
  (start 0x3000 0x8001 [(.r6, 0x2FFE)] [(0x3000, 0x8000), (0x2FFE, 0x3000), (0x2FFF, 0x0004)])

/-- IO_MODE = AsMemory. -/
def asMemory (s : State) : State := withParams s (fun p => { p with ioMode := .asMemory })

/-- A state without hidden data in the device port meets the invariant when its memory does. -/
theorem inv_of_memory {s : State} (h : s.mem.wf) (hl : s.deviceLog = []) (hd : s.draws = 0) (hr : s.record = none)
    (hf : s.flags = Classification.none) : s.Inv where
  memory := h
  port := by simp [hl]
  draws := by simp [hl, hd]
  record := by simp [hr]
  flags := by simp [hf, Classification.none]
  faultFlags := fun _ => hf

theorem witness_DecodeOfEncodeIsTheInstruction : Instr.wellFormed (.jmp 0b111 .r6) = true ∧
    Instr.wellFormed (.addReg .r7 .r0 .r7) = true := by decide

theorem witness_EncodeOfDecodeIsTheWord : decode 0xCFC0 = .valid (.ret 0b111) ∧ decode 0xFFFF = .invalid .trapBits := by
  decide

theorem witness_FieldExtensionBits :
    (0 < 5 ∧ 5 ≤ 16 ∧ 4 < 16) ∧ (sext16 (0x1F : BitVec 5)).getLsbD 15 = true ∧ (sext16 (0x0F : BitVec 5)).getLsbD 5 = false ∧
      (zext16 (0xFF : BitVec 8)).getLsbD 7 = true ∧ (zext16 (0xFF : BitVec 8)).getLsbD 8 = false := by decide

theorem witness_FetchReadsTheWordAndIncrementsPc : addState.isDevice addState.pc = false := by decide

theorem witness_StepRunsTheDecodedInstruction :
    decode (addState.loadValue addState.pc) = .valid (.addReg .r2 .r0 .r1) ∧
      decode (invalidState.loadValue invalidState.pc) = .invalid .operateBits ∧
      opcodeOf (reservedState.loadValue reservedState.pc) = .reserved := by decide

theorem witness_DecodeFailureIsPrecise :
    decode (invalidState.loadValue invalidState.pc) = .invalid .operateBits ∧
      opcodeOf (reservedState.loadValue reservedState.pc) = .reserved := by decide

theorem witness_DecodeFailureRepeats_invalid :
    step invalidState = .next (after invalidState) ∧ (after invalidState).status = .decodeInvalid ∧
      invalidState.isDevice invalidState.pc = false := ⟨rfl, by decide, by decide⟩

theorem witness_DecodeFailureRepeats_reserved :
    step reservedState = .next (after reservedState) ∧ (after reservedState).status = .reservedOpcode ∧
      reservedState.isDevice reservedState.pc = false := ⟨rfl, by decide, by decide⟩

theorem witness_CodesAreWrittenOnlyByTheResultInstructions :
    resultReg (.ld .r3 0x0FF) = some .r3 ∧ resultReg (.st .r3 0x0FF) = none ∧ Instr.st .r3 0x0FF ≠ .rti ∧
      rtiAllowed rtiState = true ∧ rtiAllowed rtiHighState = false := by decide

theorem witness_OneHotCodesAreKeptByEveryStepButRti :
    addState.oneHotCodes ∧ decode (addState.loadValue addState.pc) ≠ .valid .rti ∧
      step addState = .next (after addState) := ⟨.inr (.inl (by decide)), by decide, rfl⟩

theorem witness_OnlyRtiChangesTheMode :
    step rtiState = .next (after rtiState) ∧ (after rtiState).mode ≠ rtiState.mode := ⟨rfl, by decide⟩

theorem witness_UserModeIsNeverLeftUnderPsrMode :
    rtiUserState.cfg.rtiPrivCheck = .psrMode ∧ rtiUserState.mode = .user ∧ step rtiUserState = .next (after rtiUserState) :=
  ⟨by decide, by decide, rfl⟩

theorem witness_AddRegisterResult :
    (0x1408#16).toNat / 4096 = 0x1 ∧ (0x1408#16).getLsbD 5 = false ∧ (0x1408#16).extractLsb' 3 2 ≠ 0 := by decide

theorem witness_AndRegisterResult :
    (0x5058#16).toNat / 4096 = 0x5 ∧ (0x5058#16).getLsbD 5 = false ∧ (0x5058#16).extractLsb' 3 2 ≠ 0 := by decide

theorem witness_NotResult : (0x927E#16).toNat / 4096 = 0x9 ∧ (0x927E#16).toNat % 64 ≠ 0x3F := by decide

theorem witness_JumpTarget : Reg.r6 ≠ .r7 ∧ (0xC081#16).toNat / 4096 = 0xC ∧ (0xC081#16).toNat % 64 ≠ 0 := by decide

theorem witness_JsrrLinksAndJumps :
    (0x40C1#16).toNat / 4096 = 0x4 ∧ (0x40C1#16).getLsbD 11 = false ∧ (0x40C1#16).toNat % 64 ≠ 0 := by decide

theorem witness_BranchTarget_taken :
    (0b010#3).getLsbD 1 = true ∧ addState.psr.getLsbD 1 = true ∧ addState.cfg.brZeroMaskTaken = true := by decide

theorem witness_BranchTarget_not_taken :
    (0b101#3).getLsbD 2 = true ∧ (0b101#3).getLsbD 1 = false ∧ (0b101#3).getLsbD 0 = true ∧
      addState.psr.getLsbD 2 = false ∧ addState.psr.getLsbD 0 = false ∧ 0b101#3 ≠ 0 := by decide

theorem witness_ReturnComesBackAfterTheCall :
    ∃ t, exec (.jsr 0x400) addState = .next t ∧ t.reg .r7 = t.reg .r7 := ⟨_, rfl, rfl⟩

theorem witness_LdResult :
    (0x3000 : Word) = addState.pc + (0#9).signExtend 16 ∧ (0x1401 : Word) = addState.loadValue 0x3000 ∧
      addState.isDevice 0x3000 = false := by decide

theorem witness_LdiResult :
    (0x2FFE : Word) = rtiState.pc + (0x1FE#9).signExtend 16 ∧ (0x3000 : Word) = rtiState.loadValue 0x2FFE ∧
      (0x8000 : Word) = (rtiState.memRead 0x2FFE).loadValue 0x3000 ∧ rtiState.isDevice 0x2FFE = false ∧
      rtiState.isDevice 0x3000 = false := by decide

theorem witness_LdrResult :
    (0x2FFF : Word) = rtiState.reg .r6 + (0x01#6).signExtend 16 ∧ (0x8001 : Word) = rtiState.loadValue 0x2FFF ∧
      rtiState.isDevice 0x2FFF = false := by decide

theorem witness_StiStores :
    (0x2FFE : Word) = rtiState.pc + (0x1FE#9).signExtend 16 ∧ (0x3000 : Word) = rtiState.loadValue 0x2FFE ∧
      rtiState.isDevice 0x2FFE = false := by decide

theorem witness_LdiLoadsThroughAStoredPointer :
    (0x3000 : Word) = addState.pc + (0#9).signExtend 16 ∧ addState.isDevice 0x3000 = false ∧
      addState.isDevice (addState.reg .r0) = false ∧ (0x3000 : Word) ≠ addState.reg .r0 ∧
      (∃ t, exec (.st .r0 0) addState = .next t) ∧ (0x3001 : Word) + (0x1FF#9).signExtend 16 = 0x3000 :=
  ⟨by decide, by decide, by decide, by decide, ⟨_, rfl⟩, by decide⟩

theorem witness_TrapLinksAndVectors :
    (0xF125#16).toNat / 4096 = 0xF ∧ (0xF125#16).toNat / 256 ≠ 0xF0 ∧ (0x0025 : Word) = (0x25#8).zeroExtend 16 ∧
      addState.isDevice 0x0025 = false := by decide

theorem witness_RtiPopsPcAndPsr_stackWord :
    (0x2FFE : Word) = rtiState.reg .r6 ∧ (0x3000 : Word) = rtiState.loadValue 0x2FFE ∧
      (0x8001 : Word) = (rtiState.memRead 0x2FFE).loadValue (0x2FFE + 1) ∧ rtiState.cfg.rtiPrivCheck = .stackWord ∧
      (0x3000#16).getLsbD 15 = false ∧ rtiState.isDevice 0x2FFE = false ∧ rtiState.isDevice (0x2FFE + 1) = false := by decide

theorem witness_RtiPopsPcAndPsr_psrMode :
    (psrMode rtiHighState).cfg.rtiPrivCheck = .psrMode ∧ (psrMode rtiHighState).psr.getLsbD 15 = false ∧
      (0x8000 : Word) = (psrMode rtiHighState).loadValue ((psrMode rtiHighState).reg .r6) := by decide

theorem witness_RtiPrivilegeViolationPopsNothing_stackWord :
    rtiHighState.cfg.rtiPrivCheck = .stackWord ∧ (rtiHighState.loadValue (rtiHighState.reg .r6)).getLsbD 15 = true := by
  decide

theorem witness_RtiPrivilegeViolationPopsNothing_psrMode :
    rtiUserState.cfg.rtiPrivCheck = .psrMode ∧ rtiUserState.psr.getLsbD 15 = true := by decide

theorem witness_RtiUnderStackWordIgnoresTheMode :
    (rtiState.cfg.rtiPrivCheck = .stackWord ∧ ∃ t, exec .rti rtiState = .next t ∧ t.status = .ok) ∧
      rtiHighState.cfg.rtiPrivCheck = .stackWord ∧ ∃ t, exec .rti rtiHighState = .next t ∧ t.status ≠ .ok :=
  ⟨⟨by decide, _, rfl, by decide⟩, by decide, _, rfl, by decide⟩

theorem witness_RegistersAreWrittenOnlyAsListed : ¬writesReg (.addReg .r2 .r0 .r1) .r0 := nofun

theorem witness_PcIsLeftAloneByTheOthers : writesPc (.str .r0 .r1 0x3F) = false ∧ writesPc (.br 0 0) = true := by decide

theorem witness_MemoryEnableReadsOrWritesTheCell : addState.isDevice addState.mar = false := by decide

theorem witness_DeviceAccessesGoToThePort :
    addState.cfg.ioMode = .device ∧ (0xFE00 : Word) ∈ addState.cfg.ioAddrs ∧ (0xFE06 : Word) ∈ addState.cfg.ioAddrs := by
  decide

theorem witness_NextFetchSeesTheStore :
    storeOf (.st .r1 0) addState = some (addState.pc, 0xFFFF) ∧ addState.isDevice addState.pc = false ∧
      ∃ t, exec (.st .r1 0) addState = .next t := ⟨by decide, by decide, _, rfl⟩

theorem witness_StepKeepsTheInvariant : addState.Inv ∧ step addState = .next (after addState) :=
  ⟨inv_of_memory (by decide) rfl rfl rfl rfl, rfl⟩

theorem witness_HostOperationsKeepTheInvariant :
    rtiState.Inv ∧ ∃ t, hostSetRegister 7 0x1234 rtiState = .next t := ⟨inv_of_memory (by decide) rfl rfl rfl rfl, _, rfl⟩

theorem witness_HostRegisterAccess : hostGetRegister 7 rtiState = some 0x0000 ∧ hostGetRegister 8 rtiState = none := by
  decide

theorem witness_HostReadsCodesAndMode : ∃ t, hostSetRegister 0 0x8000 rtiUserState = .next t ∧ t.psr = 0x8001 :=
  ⟨_, rfl, by decide⟩

theorem witness_EmptyMemoryStepOnlyMovesThePc :
    (asMemory (start 0xFFFF 0x8007 [(.r3, 0x1234)] [])).cfg.ioMode = .asMemory ∧
      ∀ a, (asMemory (start 0xFFFF 0x8007 [(.r3, 0x1234)] [])).mem.read a = 0x0000 := ⟨by decide, fun _ => rfl⟩

theorem witness_DriverRunEndsAtTheFirstFault_fault :
    reservedState.status = .ok ∧ ∃ t, driverRun 1 reservedState = .next t ∧ t.status ≠ .ok := ⟨rfl, _, rfl, by decide⟩

theorem witness_DriverRunEndsAtTheFirstFault_ok :
    addState.status = .ok ∧ ∃ t, driverRun 1 addState = .next t ∧ t.status = .ok := ⟨rfl, _, rfl, by decide⟩

end Sys2Proof.Tests
end

section
/-! What the decoder rejects: each reserved-bit check in arithmetic, and the failing checks opcode by opcode. -/

namespace Sys2Proof

/-! ### The checked fields in arithmetic -/

/-- The opcode map is one to one, so the top nibble determines the opcode (R90, R95). -/
theorem opcodeOf_eq_iff (w : Word) (o : Opcode) : opcodeOf w = o ↔ w.toNat / 4096 = o.toBits.toNat := by
  rw [← opcodeOf_toNat]
  constructor
  · rintro rfl
    rfl
  · intro h
    rw [← Opcode.ofBits_toBits (opcodeOf w), BitVec.eq_of_toNat_eq h, Opcode.ofBits_toBits]

theorem offset6Field_eq_iff (w : Word) (f : BitVec 6) : offset6Field w = f ↔ w.toNat % 64 = f.toNat := by
  simp [offset6Field, ← BitVec.toNat_inj]

theorem bits11to0_eq_zero_iff (w : Word) : w.extractLsb' 0 12 = 0#12 ↔ w.toNat % 4096 = 0 := by
  simp [← BitVec.toNat_inj]

theorem bits11to8_eq_zero_iff (w : Word) : w.extractLsb' 8 4 = 0#4 ↔ w.toNat / 256 % 16 = 0 := by
  simp [← BitVec.toNat_inj, Nat.shiftRight_eq_div_pow]

theorem bits4to3_ne_zero_iff (w : Word) :
    w.extractLsb' 3 2 ≠ 0#2 ↔ w.getLsbD 4 = true ∨ w.getLsbD 3 = true := by
  rw [← not_iff_not, not_not, BitVec.eq_of_getLsbD_eq_iff]
  simp [Nat.le_one_iff_eq_zero_or_eq_one, and_comm]

/-! ### The checks, opcode by opcode -/

/-- The word fails the check that R106 to R111 put on the opcode; the other opcodes have none. -/
def FailsCheck (w : Word) : Opcode → Prop
  | .add | .and => w.getLsbD 5 = false ∧ (w.getLsbD 4 = true ∨ w.getLsbD 3 = true)
  | .jsr => w.getLsbD 11 = false ∧ w.toNat % 64 ≠ 0
  | .rti => w.toNat % 4096 ≠ 0
  | .not => w.toNat % 64 ≠ 0x3F
  | .jmp => w.toNat % 64 ≠ 0
  | .trap => w.toNat / 256 % 16 ≠ 0
  | .br | .ld | .st | .ldr | .str | .ldi | .sti | .reserved | .lea => False

theorem exists_checked_eq_invalid_iff (c : Prop) [Decidable c] (i : Instr) (r : DecodeReject) :
    (∃ why, (if c then .valid i else .invalid r) = Decoded.invalid why) ↔ ¬c := by
  split <;> simp [*]

theorem decode_invalid_iff_failsCheck (w : Word) :
    (∃ why, decode w = .invalid why) ↔ FailsCheck w (opcodeOf w) := by
  unfold decode
  cases opcodeOf w with
  | add | and =>
    rw [FailsCheck, ← bits4to3_ne_zero_iff, ← immFlagField]
    cases immFlagField w <;> simp [exists_checked_eq_invalid_iff]
  | jsr =>
    rw [FailsCheck, ← jsrFlagField]
    cases jsrFlagField w <;> simp [exists_checked_eq_invalid_iff, offset6Field_eq_iff]
  | rti => simp [FailsCheck, exists_checked_eq_invalid_iff, bits11to0_eq_zero_iff]
  | not => simp [FailsCheck, exists_checked_eq_invalid_iff, offset6Field_eq_iff]
  | jmp =>
    rw [← apply_ite Decoded.valid]
    simp [FailsCheck, exists_checked_eq_invalid_iff, offset6Field_eq_iff]
  | trap => simp [FailsCheck, exists_checked_eq_invalid_iff, bits11to8_eq_zero_iff]
  | _ => simp [FailsCheck]

/-- No other arm of the decoder builds the row RESERVED, whether its check passes or fails. -/
theorem decode_reserved_iff (w : Word) :
    (∃ payload, decode w = .valid (.reserved payload)) ↔ opcodeOf w = .reserved := by
  unfold decode
  cases opcodeOf w with
  | reserved => simp
  | _ => simp [ite_eq_iff]

/-! ### The statement -/

/-- Settles O3, by cases on the opcode: `FailsCheck` names one clause of the list, and the top nibble excludes the others. For
TRAP the nibble 0xF and bits 11:8 together are the high byte. -/
theorem decoderRejectsExactlyTheInvalidWords : Obligations.DecoderRejectsExactlyTheInvalidWords := by
  unfold Obligations.DecoderRejectsExactlyTheInvalidWords
  intro w
  refine ⟨?_, (decode_reserved_iff w).trans (opcodeOf_eq_iff w .reserved)⟩
  rw [decode_invalid_iff_failsCheck]
  cases h : opcodeOf w with
  | trap =>
    have hnibble : w.toNat / 4096 = 0xF := (opcodeOf_eq_iff w .trap).mp h
    rw [FailsCheck]
    omega
  | _ => simp [FailsCheck, (opcodeOf_eq_iff w _).mp h, Opcode.toBits]

end Sys2Proof
end

section
/-! The cycle: fetch, the step by the decoder's verdict, and how a decode failure ends it. -/

namespace Sys2Proof.Machine

/-! ### Fetch -/

theorem State.fetch_port (s : State) : PortAfterRead s.pc (s.loadValue s.pc) s s.fetch := by
  rw [State.fetch_eq]
  exact s.memRead_port s.pc

theorem State.fetch_iaddr (s : State) : s.fetch.iaddr = s.pc := by simp [State.iaddr]

/-- Decode latches the record and makes no access, so the fetch's transaction is the only one. -/
theorem State.beginStep_port (s : State) : PortAfterRead s.pc (s.loadValue s.pc) s s.beginStep := s.fetch_port

/-- Settles O6: fetch is one read at the PC (`State.fetch_eq`), and its fields and its device transaction are that read's. -/
theorem fetchReadsTheWordAndIncrementsPc : Obligations.FetchReadsTheWordAndIncrementsPc := by
  unfold Obligations.FetchReadsTheWordAndIncrementsPc
  intro s
  exact ⟨s.fetch_mar, s.fetch_iaddr, s.fetch_pc, s.fetch_mdr, s.fetch_bus, s.fetch_ir, s.loadValue_array, s.fetch_port,
    s.fetch_regs, s.fetch_psr, s.fetch_mem, s.fetch_cfg⟩

/-! ### The step by the decoder's verdict (R130, R137, R138) -/

theorem step_of_valid {s : State} {i : Instr} (h : decode (s.loadValue s.pc) = .valid i) :
    step s = exec i s.beginStep := by
  rw [step_eq, h]

theorem step_of_invalid {s : State} {why : DecodeReject} (h : decode (s.loadValue s.pc) = .invalid why) :
    step s = s.beginStep.decodeFailure .decodeInvalid := by
  rw [step_eq, h, State.decodeFailure_eq, State.beginStep_iaddr]

/-- The words of opcode 0xD are read as the row RESERVED, whose meaning is the other decode failure (log 9). -/
theorem step_of_reserved {s : State} (h : opcodeOf (s.loadValue s.pc) = .reserved) :
    step s = s.beginStep.decodeFailure .reservedOpcode := by
  obtain ⟨payload, hw⟩ := (decode_reserved_iff _).mpr h
  exact step_of_valid hw

/-! ### Decode failures -/

/-- Either kind of decode failure after the fetch undoes the PC increment and keeps what the fetch read (R138). -/
theorem State.beginStep_decodeFailure_precise (s : State) (e : Status) :
    ∃ t, s.beginStep.decodeFailure e = .next t ∧ FaultsKeeping e s t ∧ t.pc = s.pc ∧ t.ir = s.loadValue s.pc ∧
      t.mar = s.pc ∧ t.mdr = s.loadValue s.pc ∧ t.record = some (recordOf s.pc (s.loadValue s.pc)) ∧
      PortAfterRead s.pc (s.loadValue s.pc) s t := by
  refine ⟨_, State.decodeFailure_eq _ e, ?keeps, ?_, ?_, ?_, ?_, ?_, s.beginStep_port⟩
  case keeps => exact ⟨rfl, rfl, fun r => by simp, by simp, fun a => by simp, by simp⟩
  all_goals simp

/-- Settles O8: both kinds of rejected word end the step by `State.decodeFailure` on the fetched state. -/
theorem decodeFailureIsPrecise : Obligations.DecodeFailureIsPrecise := by
  unfold Obligations.DecodeFailureIsPrecise
  rintro s e (⟨rfl, why, hw⟩ | ⟨rfl, hw⟩)
  · rw [step_of_invalid hw]
    exact s.beginStep_decodeFailure_precise _
  · rw [step_of_reserved hw]
    exact s.beginStep_decodeFailure_precise _

theorem State.beginStep_decodeFailure_status_pc (s : State) (e : Status) :
    ∃ t, s.beginStep.decodeFailure e = .next t ∧ t.status = e ∧ t.pc = s.pc := by
  obtain ⟨t, ht, ⟨hstatus, -⟩, hpc, -⟩ := s.beginStep_decodeFailure_precise e
  exact ⟨t, ht, hstatus, hpc⟩

/-- Settles O7, one clause per verdict of the decoder; what exec starts from is `State.beginStep`, field by field. -/
theorem stepRunsTheDecodedInstruction : Obligations.StepRunsTheDecodedInstruction := by
  unfold Obligations.StepRunsTheDecodedInstruction
  intro s
  refine ⟨fun i => step_of_valid, fun why hw => ?invalid, fun hw => ?reserved, s.beginStep_pc, s.beginStep_iaddr,
    s.beginStep_ir, s.beginStep_record, s.beginStep_reg, s.beginStep_psr, s.beginStep_mem, s.beginStep_cfg,
    s.beginStep_port⟩
  case invalid =>
    rw [step_of_invalid hw]
    exact s.beginStep_decodeFailure_status_pc _
  case reserved =>
    rw [step_of_reserved hw]
    exact s.beginStep_decodeFailure_status_pc _

end Sys2Proof.Machine
end

section
/-! What each instruction does to the PSR and to the status: the result instructions, RTI and all others. -/

namespace Sys2Proof.Machine

/-! ### The result instructions (R141) -/

theorem State.writeResult_outcome (s : State) (dr : Reg) (v : Word) :
    ∃ t, s.writeResult dr v = .next t ∧ ProducesResult dr v s t :=
  ⟨_, s.writeResult_eq dr v, s.writeResult_produces dr v⟩

theorem State.loadFrom_outcome (s : State) (dr : Reg) (ea : Word) :
    ∃ t, s.loadFrom dr ea = .next t ∧ ProducesResult dr (s.loadValue ea) s t :=
  ⟨_, s.loadFrom_eq dr ea, ((s.memRead ea).writeResult_produces dr (s.loadValue ea)).of_memRead⟩

theorem ProducesResult.codesOf_reg {s t : State} {dr : Reg} {v : Word} (h : ProducesResult dr v s t) :
    CodesOf (t.reg dr) s t := by
  obtain ⟨rfl, -, hcodes, -⟩ := h
  exact hcodes

theorem ProducesResult.status_ok {s t : State} {dr : Reg} {v : Word} (h : ProducesResult dr v s t) : t.status = .ok := by
  obtain ⟨-, -, -, -, -, -, hstatus⟩ := h
  exact hstatus

/-- Every instruction with a result register ends in the shared result write, some of them after reads of memory. -/
theorem exec_producesResult {i : Instr} {dr : Reg} (h : resultReg i = some dr) (s : State) :
    ∃ v t, exec i s = .next t ∧ ProducesResult dr v s t := by
  cases i with
  | addReg | addImm | andReg | andImm | not | lea =>
    cases h
    exact ⟨_, s.writeResult_outcome _ _⟩
  | ld | ldr =>
    cases h
    exact ⟨_, s.loadFrom_outcome _ _⟩
  | ldi _ offset9 =>
    cases h
    obtain ⟨t, ht, hres⟩ := (s.memRead (s.pc + sext16 offset9)).loadFrom_outcome dr (s.loadValue (s.pc + sext16 offset9))
    exact ⟨_, t, (exec_ldi dr offset9 s).trans ht, hres.of_memRead⟩
  | _ => cases h

/-! ### The status of each instruction (R142, R250) -/

/-- The status exec reports: only RTI and the reserved opcode can end in an error. -/
def execStatus (i : Instr) (s : State) : Status :=
  match i with
  | .rti => if rtiAllowed s then .ok else .privilegeViolation
  | .reserved _ => .reservedOpcode
  | _ => .ok

theorem execStatus_of_resultReg {i : Instr} {dr : Reg} (h : resultReg i = some dr) (s : State) : execStatus i s = .ok := by
  cases i with
  | rti | reserved => cases h
  | _ => rfl

theorem execStatus_ne_decodeInvalid (i : Instr) (s : State) : execStatus i s ≠ .decodeInvalid := by
  cases i with
  | rti => cases h : rtiAllowed s <;> simp [execStatus, h]
  | _ => simp [execStatus]

theorem execStatus_eq_reservedOpcode_iff (i : Instr) (s : State) :
    execStatus i s = .reservedOpcode ↔ ∃ payload, i = .reserved payload := by
  cases i with
  | rti => cases h : rtiAllowed s <;> simp [execStatus, h]
  | _ => simp [execStatus]

theorem execStatus_eq_privilegeViolation_iff (i : Instr) (s : State) :
    execStatus i s = .privilegeViolation ↔ i = .rti ∧ rtiAllowed s = false := by
  cases i with
  | rti => cases h : rtiAllowed s <;> simp [execStatus, h]
  | _ => simp [execStatus]

/-! ### RTI and the instructions without a result -/

theorem State.popFrame_psr (s : State) (w0 : Word) : (s.popFrame w0).psr = s.loadValue (s.reg .r6 + 1) := by
  rw [State.popFrame_eq]

/-- RTI loads the PSR when its check passes, and otherwise reports the violation and keeps it (R232 to R234). -/
theorem exec_rti_psr_status (s : State) :
    ∃ t, exec .rti s = .next t ∧ t.status = execStatus .rti s ∧
      t.psr = if rtiAllowed s then (s.memRead (s.reg .r6)).loadValue (s.reg .r6 + 1) else s.psr := by
  cases h : rtiAllowed s with
  | true => exact ⟨_, exec_rti_allowed h, by simp [execStatus, h], by simp [State.popFrame_psr]⟩
  | false =>
    cases hc : s.cfg.rtiPrivCheck with
    | stackWord =>
      have hbit : (s.loadValue (s.reg .r6)).getLsbD 15 = true := by simpa [rtiAllowed, hc] using h
      exact ⟨_, exec_rti_stackWord_violation hc hbit, by simp [execStatus, h], by simp⟩
    | psrMode =>
      have hbit : s.psr.getLsbD 15 = true := by simpa [rtiAllowed, hc] using h
      exact ⟨_, exec_rti_psrMode_violation hc hbit, by simp [execStatus, h], by simp⟩

/-- An instruction without a result register that is not RTI ends in a report over operations that leave the PSR alone. -/
theorem exec_psr_kept {i : Instr} (h : resultReg i = none) (hrti : i ≠ .rti) (s : State) :
    ∃ t, exec i s = .next t ∧ t.status = execStatus i s ∧ t.psr = s.psr := by
  cases i with
  | br nzp offset9 =>
    cases hb : s.branchTaken nzp with
    | true => exact ⟨_, exec_br_taken hb offset9, rfl, rfl⟩
    | false => exact ⟨_, exec_br_not_taken hb offset9, rfl, rfl⟩
  | jmp | ret => exact ⟨_, s.jumpThrough_eq _, rfl, rfl⟩
  | jsr offset11 => exact ⟨_, exec_jsr offset11 s, rfl, rfl⟩
  | jsrr ignored base => exact ⟨_, exec_jsrr ignored base s, rfl, rfl⟩
  | trap trapvect8 => exact ⟨_, exec_trap trapvect8 s, rfl, by simp [State.link]⟩
  | st | str => exact ⟨_, s.storeTo_eq _ _, rfl, by simp⟩
  | sti sr offset9 => exact ⟨_, (exec_sti sr offset9 s).trans (State.storeTo_eq _ _ _), rfl, by simp⟩
  | reserved payload => exact ⟨_, exec_reserved payload s, rfl, rfl⟩
  | rti => exact absurd rfl hrti
  | _ => cases h

/-- Settles O15: the result instructions, RTI and all others, each by its own lemma. -/
theorem codesAreWrittenOnlyByTheResultInstructions : Obligations.CodesAreWrittenOnlyByTheResultInstructions := by
  unfold Obligations.CodesAreWrittenOnlyByTheResultInstructions
  intro i s
  cases h : resultReg i with
  | some dr =>
    obtain ⟨v, t, ht, hres⟩ := exec_producesResult h s
    have hrti : i ≠ .rti := by
      rintro rfl
      cases h
    exact ⟨t, ht, fun d hd => Option.some.inj hd ▸ hres.codesOf_reg, nofun, fun hi => absurd hi hrti⟩
  | none =>
    by_cases hrti : i = .rti
    · subst hrti
      obtain ⟨t, ht, -, hpsr⟩ := exec_rti_psr_status s
      exact ⟨t, ht, nofun, fun _ hne => absurd rfl hne, fun _ => hpsr⟩
    · obtain ⟨t, ht, -, hpsr⟩ := exec_psr_kept h hrti s
      exact ⟨t, ht, nofun, fun _ _ => hpsr, fun hi => absurd hi hrti⟩

/-! ### The status of a step -/

theorem exec_status (i : Instr) (s : State) : ∃ t, exec i s = .next t ∧ t.status = execStatus i s := by
  cases h : resultReg i with
  | some dr =>
    obtain ⟨v, t, ht, hres⟩ := exec_producesResult h s
    exact ⟨t, ht, hres.status_ok.trans (execStatus_of_resultReg h s).symm⟩
  | none =>
    by_cases hrti : i = .rti
    · subst hrti
      obtain ⟨t, ht, hstatus, -⟩ := exec_rti_psr_status s
      exact ⟨t, ht, hstatus⟩
    · obtain ⟨t, ht, hstatus, -⟩ := exec_psr_kept h hrti s
      exact ⟨t, ht, hstatus⟩

/-- Each status has its own number (R142; log 20). -/
theorem Status.code_eq_iff (e : Status) :
    (e.code = 0 ↔ e = .ok) ∧ (e.code = 1 ↔ e = .decodeInvalid) ∧ (e.code = 2 ↔ e = .reservedOpcode) ∧
      (e.code = 3 ↔ e = .privilegeViolation) := by
  cases e <;> decide

/-- Settles O10: a rejected word ends in its decode failure, and an accepted one with the status of its instruction
(`execStatus`); `decode_reserved_iff` turns opcode 0xD into the row RESERVED. -/
theorem stepAlwaysAnswersAndFaultsOnlyForItsCause : Obligations.StepAlwaysAnswersAndFaultsOnlyForItsCause := by
  unfold Obligations.StepAlwaysAnswersAndFaultsOnlyForItsCause
  intro s
  rw [← decode_reserved_iff]
  cases hw : decode (s.loadValue s.pc) with
  | invalid why =>
    obtain ⟨t, ht, hstatus, -⟩ := s.beginStep_decodeFailure_status_pc .decodeInvalid
    refine ⟨t, (step_of_invalid hw).trans ht, ?_, ?_, ?_, t.status.code_eq_iff⟩ <;> simp [hstatus]
  | valid i =>
    obtain ⟨t, ht, hstatus⟩ := exec_status i s.beginStep
    refine ⟨t, (step_of_valid hw).trans ht, ?_, ?_, ?_, t.status.code_eq_iff⟩ <;> rw [hstatus]
    · simp [execStatus_ne_decodeInvalid]
    · simp [execStatus_eq_reservedOpcode_iff]
    · simp [execStatus_eq_privilegeViolation_iff]

end Sys2Proof.Machine
end

section
/-! The condition codes by ranges of the unsigned value, and the host's view of the PSR. -/

namespace Sys2Proof.Machine

/-- The top bit by the unsigned value (R140). -/
theorem getLsbD_15_iff (v : Word) : v.getLsbD 15 = true ↔ 32768 ≤ v.toNat := by
  have hmsb : v.msb = v.getLsbD 15 := v.msb_eq_getLsbD_last
  rw [← hmsb, BitVec.msb_eq_decide, decide_eq_true_iff]

theorem conditionCodes_eq_ranges (v : Word) :
    conditionCodes v = if v.toNat ≥ 32768 then 0b100#3 else if v.toNat = 0 then 0b010#3 else 0b001#3 := by
  have hzero : v = 0 ↔ v.toNat = 0 := BitVec.toNat_inj.symm
  simp only [conditionCodes, getLsbD_15_iff, hzero, ge_iff_le]

/-- Settles O14: `State.setcc_codesOf` gives the bits, `conditionCodes_eq_ranges` the ranges. -/
theorem setccWritesTheCodes : Obligations.SetccWritesTheCodes := by
  unfold Obligations.SetccWritesTheCodes
  intro s v
  exact ⟨s.setcc_codesOf v, rfl, (s.setcc_cc v).trans (conditionCodes_eq_ranges v)⟩

theorem State.cc_toNat (s : State) : s.cc.toNat = s.psr.toNat % 8 := by simp [State.cc]

theorem State.mode_eq_user_iff (s : State) : s.mode = .user ↔ s.psr.getLsbD 15 = true := by simp [State.mode]

theorem State.mode_eq_supervisor_iff (s : State) : s.mode = .supervisor ↔ s.psr.getLsbD 15 = false := by
  simp [State.mode]

theorem hostSetRegister_psr {i : Nat} {v : Word} {s t : State} (h : hostSetRegister i v s = .next t) : t.psr = s.psr := by
  obtain ⟨r, -, rfl⟩ := hostSetRegister_next h
  rfl

/-- Settles O56: the codes and the mode are fields of the PSR, and no host write but reset touches it. -/
theorem hostReadsCodesAndMode : Obligations.HostReadsCodesAndMode := by
  unfold Obligations.HostReadsCodesAndMode
  intro s
  exact ⟨s.cc_toNat, s.mode_eq_supervisor_iff, s.mode_eq_user_iff, fun _ => rfl, fun _ _ => rfl,
    fun _ _ _ => hostSetRegister_psr⟩

end Sys2Proof.Machine
end

section
/-! The driver's run: its first step, its last step, and what more steps change. -/

namespace Sys2Proof.Machine

/-- The first step of a run: it ends there on a fault, and goes on from an OK status. -/
theorem driverRun_succ_iff (k : Nat) (s t : State) :
    driverRun (k + 1) s = .next t ↔
      ∃ u, step s = .next u ∧ if u.status = .ok then driverRun k u = .next t else u = t := by
  rw [driverRun]
  cases step s with
  | next u => by_cases hu : u.status = .ok <;> simp [hu]
  | fault r => simp
  | refused r => simp

/-- A run that ended in a fault ends there however many steps more it may make. -/
theorem driverRun_add_of_fault {s t : State} (k n : Nat) (hs : s.status = .ok) (ht : t.status ≠ .ok)
    (h : driverRun k s = .next t) : driverRun (k + n) s = .next t := by
  induction k generalizing s with
  | zero =>
    cases h
    exact absurd hs ht
  | succ k ih =>
    obtain ⟨u, hstep, hrest⟩ := (driverRun_succ_iff k s t).mp h
    rw [Nat.succ_add, Nat.succ_eq_add_one, driverRun_succ_iff]
    refine ⟨u, hstep, ?_⟩
    split at hrest
    · exact (if_pos ‹_›).mpr (ih ‹_› hrest)
    · exact (if_neg ‹_›).mpr hrest

/-- The last step of a run starts from an OK state that fewer steps reach, and is the last one allowed unless it faults. -/
theorem driverRun_last_step {s t : State} (k : Nat) (hs : s.status = .ok) (h : driverRun (k + 1) s = .next t) :
    ∃ j u, j ≤ k ∧ driverRun j s = .next u ∧ u.status = .ok ∧ step u = .next t ∧ (t.status = .ok → j = k) := by
  induction k generalizing s with
  | zero =>
    obtain ⟨v, hstep, hrest⟩ := (driverRun_succ_iff 0 s t).mp h
    have hvt : v = t := by simpa [driverRun] using hrest
    exact ⟨0, s, le_rfl, rfl, hs, hvt ▸ hstep, fun _ => rfl⟩
  | succ k ih =>
    obtain ⟨v, hstep, hrest⟩ := (driverRun_succ_iff (k + 1) s t).mp h
    by_cases hv : v.status = .ok
    · obtain ⟨j, u, hjk, hrun, hu, hlast, hall⟩ := ih hv ((if_pos hv).mp hrest)
      exact ⟨j + 1, u, by omega, (driverRun_succ_iff j s u).mpr ⟨v, hstep, (if_pos hv).mpr hrun⟩, hu, hlast,
        fun ht => by rw [hall ht]⟩
    · obtain rfl : v = t := (if_neg hv).mp hrest
      exact ⟨0, s, Nat.zero_le _, rfl, hs, hstep, fun ht => absurd ht hv⟩

/-- Settles O58, by the two inductions on the number of steps allowed. -/
theorem driverRunEndsAtTheFirstFault : Obligations.DriverRunEndsAtTheFirstFault := by
  unfold Obligations.DriverRunEndsAtTheFirstFault
  intro k s t hs h
  exact ⟨fun ht n => driverRun_add_of_fault (k + 1) n hs ht h, driverRun_last_step k hs h⟩

end Sys2Proof.Machine
end

section
/-! The words of each row: a word is read as an instruction exactly when it is the instruction's word. -/

namespace Sys2Proof

open Laws

/-! ### Fields of a word -/

theorem append_eq_iff {m n : Nat} (a : BitVec m) (b : BitVec n) (w : BitVec (m + n)) :
    a ++ b = w ↔ w.extractLsb' n m = a ∧ w.extractLsb' 0 n = b := by
  constructor
  · rintro rfl
    exact ⟨BitVec.extractLsb'_append_eq_left, BitVec.extractLsb'_append_eq_right⟩
  · rintro ⟨rfl, rfl⟩
    exact BitVec.extractLsb'_append_extractLsb'

theorem eq_append_iff {m n : Nat} (w : BitVec (m + n)) (a : BitVec m) (b : BitVec n) :
    w = a ++ b ↔ w.extractLsb' n m = a ∧ w.extractLsb' 0 n = b :=
  eq_comm.trans (append_eq_iff a b w)

theorem extractLsb'_extractLsb' {n i l j k : Nat} (w : BitVec n) (h : j + k ≤ l) :
    (w.extractLsb' i l).extractLsb' j k = w.extractLsb' (i + j) k := by
  ext b hb
  simp [show j + b < l by omega, Nat.add_assoc]

theorem bit_eq_iff (w : Word) (k : Nat) (b : Bool) : w.extractLsb' k 1 = BitVec.ofBool b ↔ w.getLsbD k = b := by
  rw [BitVec.eq_of_getLsbD_eq_iff]
  simp

theorem bit_eq_one_iff (w : Word) (k : Nat) : w.extractLsb' k 1 = 1#1 ↔ w.getLsbD k = true := bit_eq_iff w k true

theorem bit_eq_zero_iff (w : Word) (k : Nat) : w.extractLsb' k 1 = 0#1 ↔ w.getLsbD k = false := bit_eq_iff w k false

/-- The bits 5:3 of register mode hold the mode bit and the two bits that R106 checks. -/
theorem bits5to3_eq_zero_iff (w : Word) : w.extractLsb' 3 3 = 0#3 ↔ w.getLsbD 5 = false ∧ w.extractLsb' 3 2 = 0#2 := by
  rw [show 0#3 = 0#1 ++ 0#2 from rfl, eq_comm, append_eq_iff, extractLsb'_extractLsb' w (by decide),
    extractLsb'_extractLsb' w (by decide), bit_eq_zero_iff]

theorem Reg.eq_toBits_iff (b : BitVec 3) (r : Reg) : b = r.toBits ↔ Reg.ofBits b = r := by
  constructor
  · rintro rfl
    exact Reg.ofBits_toBits r
  · rintro rfl
    exact (Reg.toBits_ofBits b).symm

theorem opcodeOf_eq_iff_bits (w : Word) (o : Opcode) : opcodeOf w = o ↔ w.extractLsb' 12 4 = o.toBits := by
  constructor
  · rintro rfl
    exact (Opcode.toBits_ofBits _).symm
  · intro h
    rw [opcodeOf, h, Opcode.ofBits_toBits]

/-! ### The rows -/

/-- Bits 11:0 of the word are those of the instruction: its operands stand in their fields, and the fixed bits of its row hold
their values (R96 to R111). -/
def RowFields (w : Word) : Instr → Prop
  | .br nzp offset9 => nzpField w = nzp ∧ offset9Field w = offset9
  | .addReg dr sr1 sr2 | .andReg dr sr1 sr2 =>
    immFlagField w = false ∧ w.extractLsb' 3 2 = 0 ∧ drField w = dr ∧ sr1Field w = sr1 ∧ sr2Field w = sr2
  | .addImm dr sr1 imm5 | .andImm dr sr1 imm5 =>
    immFlagField w = true ∧ drField w = dr ∧ sr1Field w = sr1 ∧ imm5Field w = imm5
  | .ld r offset9 | .st r offset9 | .ldi r offset9 | .sti r offset9 | .lea r offset9 =>
    drField w = r ∧ offset9Field w = offset9
  | .ldr r base offset6 | .str r base offset6 => drField w = r ∧ sr1Field w = base ∧ offset6Field w = offset6
  | .jsr offset11 => jsrFlagField w = true ∧ offset11Field w = offset11
  | .jsrr ignored base =>
    jsrFlagField w = false ∧ offset6Field w = 0 ∧ w.extractLsb' 9 2 = ignored ∧ sr1Field w = base
  | .rti => w.extractLsb' 0 12 = 0
  | .not dr sr1 => offset6Field w = 0x3F ∧ drField w = dr ∧ sr1Field w = sr1
  | .jmp ignored base => offset6Field w = 0 ∧ w.extractLsb' 9 3 = ignored ∧ sr1Field w = base
  | .ret ignored => offset6Field w = 0 ∧ sr1Field w = .r7 ∧ w.extractLsb' 9 3 = ignored
  | .reserved payload => w.extractLsb' 0 12 = payload
  | .trap trapvect8 => w.extractLsb' 8 4 = 0 ∧ trapvect8Field w = trapvect8

/-- Each arm of the decoder builds the rows of its own opcode. -/
theorem opcodeOf_of_decode {w : Word} {i : Instr} (h : decode w = .valid i) : opcodeOf w = rowOpcode i := by
  unfold decode at h
  cases ho : opcodeOf w with
  | add | and | jsr | rti | not | jmp | trap =>
    simp only [ho] at h
    split_ifs at h <;> cases h <;> rfl
  | _ =>
    simp only [ho] at h
    cases h
    rfl

/-- The decoder's side: under the row's opcode its checks and the fields it extracts are the row's. JMP alone excludes a base
(R7, whose words are RET's). -/
theorem decode_eq_valid_iff_rowFields (w : Word) (i : Instr) :
    decode w = .valid i ↔ i.wellFormed = true ∧ opcodeOf w = rowOpcode i ∧ RowFields w i := by
  by_cases ho : opcodeOf w = rowOpcode i
  · rw [decode, ho]
    cases i with
    | jmp ignored base =>
      obtain rfl | hbase := eq_or_ne (sr1Field w) base
      · simp [rowOpcode, RowFields, Instr.wellFormed, ite_eq_iff, and_left_comm]
      · simp [rowOpcode, RowFields, ite_eq_iff, hbase]
    | _ => simp [rowOpcode, RowFields, Instr.wellFormed, ite_eq_iff]
  · exact iff_of_false (fun h => ho (opcodeOf_of_decode h)) (fun ⟨_, h, _⟩ => ho h)

/-- The encoder's side: a word equals a concatenation exactly when each of its fields equals the part that stands there. -/
theorem encode_eq_iff_rowFields (w : Word) (i : Instr) :
    encode i = w ↔ opcodeOf w = rowOpcode i ∧ RowFields w i := by
  have hr7 : w.extractLsb' 6 3 = 7#3 ↔ Reg.ofBits (w.extractLsb' 6 3) = .r7 := Reg.eq_toBits_iff _ .r7
  rw [opcodeOf_eq_iff_bits]
  cases i with
  | rti | reserved =>
    rw [encode, append_eq_iff]
    rfl
  | _ =>
    rw [encode, append_eq_iff]
    simp (disch := decide) only [eq_append_iff, extractLsb'_extractLsb', Reg.eq_toBits_iff]
    simp [rowOpcode, Opcode.toBits, RowFields, hr7, bits5to3_eq_zero_iff, bit_eq_one_iff, bit_eq_zero_iff, nzpField, drField,
      sr1Field, sr2Field, immFlagField, jsrFlagField, imm5Field, offset6Field, offset9Field, offset11Field, trapvect8Field,
      and_assoc, and_comm, and_left_comm]

/-- R96 to R104: what decode reads from a word, encode writes back, and the reverse. -/
theorem decode_eq_valid_iff_eq_encode {i : Instr} (h : i.wellFormed = true) (w : Word) :
    decode w = .valid i ↔ w = encode i := by
  rw [decode_eq_valid_iff_rowFields, and_iff_right h, ← encode_eq_iff_rowFields, eq_comm]

end Sys2Proof
end

section
/-! ADD, AND and NOT: their words, the reserved-bit checks, and the result with its frame. -/

namespace Sys2Proof.Machine

/-- The check of R106, which ADD and AND share. -/
theorem decode_operateBits {w : Word} (ho : opcodeOf w = .add ∨ opcodeOf w = .and) (hmode : immFlagField w = false)
    (hbits : w.extractLsb' 3 2 ≠ 0#2) : decode w = .invalid .operateBits := by
  obtain ho | ho := ho
  all_goals simp [decode, ho, hmode, hbits]

theorem decode_notBits {w : Word} (ho : opcodeOf w = .not) (hbits : w.toNat % 64 ≠ 0x3F) :
    decode w = .invalid .notBits := by
  simp [decode, ho, offset6Field_eq_iff, hbits]

/-- The shared end of ADD, AND and NOT (R141): the result, its codes, and no memory access. -/
theorem State.writeResult_outcome_noAccess (s : State) (dr : Reg) (v : Word) :
    ∃ t, s.writeResult dr v = .next t ∧ ProducesResult dr v s t ∧ NoAccess s t :=
  ⟨_, s.writeResult_eq dr v, s.writeResult_produces dr v, s.writeResult_noAccess dr v⟩

theorem ProducesResult.reg_eq {s t : State} {dr : Reg} {v : Word} (h : ProducesResult dr v s t) : t.reg dr = v := by
  obtain ⟨hreg, -⟩ := h
  exact hreg

/-- Settles O19: the sum of the words is the sum modulo 65536 by `BitVec.toNat_add`. -/
theorem addRegisterResult : Obligations.AddRegisterResult := by
  unfold Obligations.AddRegisterResult
  refine ⟨fun w dr sr1 sr2 => decode_eq_valid_iff_eq_encode rfl w,
    fun w ho => decode_operateBits (.inl ((opcodeOf_eq_iff w .add).mpr ho)), fun dr sr1 sr2 s => ?_⟩
  obtain ⟨t, ht, hres, hframe⟩ := s.writeResult_outcome_noAccess dr (s.reg sr1 + s.reg sr2)
  exact ⟨t, (exec_addReg dr sr1 sr2 s).trans ht, hres, hframe, by rw [hres.reg_eq, BitVec.toNat_add]⟩

/-- Settles O20: every immediate is read from its word, and the result is written as for O19. -/
theorem addImmediateResult : Obligations.AddImmediateResult := by
  unfold Obligations.AddImmediateResult
  refine ⟨fun w dr sr1 imm5 => decode_eq_valid_iff_eq_encode rfl w, fun dr sr1 imm5 s => ?_⟩
  rw [exec_addImm]
  exact s.writeResult_outcome_noAccess _ _

/-- Settles O21, as O19 with the bitwise AND for the sum; ADD and AND share the check of bits 4:3. -/
theorem andRegisterResult : Obligations.AndRegisterResult := by
  unfold Obligations.AndRegisterResult
  refine ⟨fun w dr sr1 sr2 => decode_eq_valid_iff_eq_encode rfl w,
    fun w ho => decode_operateBits (.inr ((opcodeOf_eq_iff w .and).mpr ho)), fun dr sr1 sr2 s => ?_⟩
  rw [exec_andReg]
  exact s.writeResult_outcome_noAccess _ _

/-- Settles O22, as O20 with the bitwise AND for the sum. -/
theorem andImmediateResult : Obligations.AndImmediateResult := by
  unfold Obligations.AndImmediateResult
  refine ⟨fun w dr sr1 imm5 => decode_eq_valid_iff_eq_encode rfl w, fun dr sr1 imm5 s => ?_⟩
  rw [exec_andImm]
  exact s.writeResult_outcome_noAccess _ _

/-- Settles O23; the six ones of the word are the row's fixed bits, so no word that fails R109 is a NOT. -/
theorem notResult : Obligations.NotResult := by
  unfold Obligations.NotResult
  refine ⟨fun w dr sr1 => decode_eq_valid_iff_eq_encode rfl w,
    fun w ho => decode_notBits ((opcodeOf_eq_iff w .not).mpr ho), fun dr sr1 s => ?_⟩
  rw [exec_not]
  exact s.writeResult_outcome_noAccess _ _

end Sys2Proof.Machine
end

section
/-! JMP, RET, JSR and JSRR: their words, the reserved-bit checks, the target, the link and the frame. -/

namespace Sys2Proof.Machine

/-! ### The reserved bits (R107, R110) -/

theorem decode_jmpBits {w : Word} (ho : opcodeOf w = .jmp) (hbits : w.toNat % 64 ≠ 0) :
    decode w = .invalid .jmpBits := by
  simp [decode, ho, offset6Field_eq_iff, hbits]

theorem decode_jsrrBits {w : Word} (ho : opcodeOf w = .jsr) (hmode : jsrFlagField w = false) (hbits : w.toNat % 64 ≠ 0) :
    decode w = .invalid .jsrrBits := by
  simp [decode, ho, hmode, offset6Field_eq_iff, hbits]

/-! ### Jumps -/

/-- The shared end of every transfer without a link. -/
theorem State.writePc_onlyPcMoves (s : State) (v : Word) (f : Classification) :
    OnlyPcMoves s ((s.writePc v).report .ok f) :=
  ⟨fun r => by simp, by simp, ⟨rfl, rfl, fun _ => rfl, rfl, rfl⟩, ⟨rfl, rfl, rfl⟩, rfl⟩

/-- The shared meaning of JMP and RET, with the flags of R143. -/
theorem State.jumpThrough_outcome (s : State) (base : Reg) :
    ∃ t, s.jumpThrough base = .next t ∧ OnlyPcMoves s t ∧ t.pc = s.reg base ∧
      t.flags = if base = .r7 then Classification.ofReturn else Classification.none :=
  ⟨_, s.jumpThrough_eq base, s.writePc_onlyPcMoves _ _, rfl, rfl⟩

/-- Settles O25: a base other than R7 makes JMP a row of its own, and its meaning is `State.jumpThrough` for every base. -/
theorem jumpTarget : Obligations.JumpTarget := by
  unfold Obligations.JumpTarget
  refine ⟨fun w ignored base hbase =>
      decode_eq_valid_iff_eq_encode (i := .jmp ignored base) (bne_iff_ne.mpr hbase) w,
    fun w ho => decode_jmpBits ((opcodeOf_eq_iff w .jmp).mpr ho), fun ignored base s => ?_⟩
  obtain ⟨t, ht, hframe, hpc, -⟩ := s.jumpThrough_outcome base
  exact ⟨t, (exec_jmp ignored base s).trans ht, hframe, hpc⟩

/-- Settles O26: RET and JMP through R7 are the same `State.jumpThrough`, which flags a subroutine return for R7. -/
theorem returnTarget : Obligations.ReturnTarget := by
  unfold Obligations.ReturnTarget
  refine ⟨fun w ignored => decode_eq_valid_iff_eq_encode rfl w, fun ignored s => ?_⟩
  rw [exec_ret, exec_jmp]
  exact ⟨rfl, s.jumpThrough_outcome .r7⟩

/-! ### Calls -/

/-- JSR and JSRR both write the link and then the PC (R186, R187): the link is the PC on entry, and no access is made. -/
theorem State.link_writePc_links (s : State) (v : Word) (f : Classification) :
    Links s ((s.link.writePc v).report .ok f) :=
  ⟨by simp [State.link_reg], fun r hr => by simp [State.link_reg, hr], rfl, fun _ => rfl, ⟨rfl, rfl, rfl⟩, rfl⟩

theorem State.link_writePc_noAccess (s : State) (v : Word) (f : Classification) :
    NoAccess s ((s.link.writePc v).report .ok f) :=
  ⟨rfl, rfl, fun _ => rfl, rfl, rfl⟩

/-- Settles O27: the target is computed from the PC on entry, which the link write leaves alone. -/
theorem jsrLinksAndJumps : Obligations.JsrLinksAndJumps := by
  unfold Obligations.JsrLinksAndJumps
  exact ⟨fun w offset11 => decode_eq_valid_iff_eq_encode rfl w, fun offset11 s =>
    ⟨_, exec_jsr offset11 s, s.link_writePc_links _ _, s.link_writePc_noAccess _ _, rfl⟩⟩

/-- Settles O28: the link and the frame are JSR's, and `State.jsrrTarget_eq` gives the target under either order. -/
theorem jsrrLinksAndJumps : Obligations.JsrrLinksAndJumps := by
  unfold Obligations.JsrrLinksAndJumps
  exact ⟨fun w ignored base => decode_eq_valid_iff_eq_encode rfl w,
    fun w ho => decode_jsrrBits ((opcodeOf_eq_iff w .jsr).mpr ho), fun ignored base s =>
    ⟨_, exec_jsrr ignored base s, s.link_writePc_links _ _, s.link_writePc_noAccess _ _, s.jsrrTarget_eq base⟩⟩

end Sys2Proof.Machine
end

section
/-! Loads, stores and LEA: their words, the address, the access at it, the result or the stored cell, and the frame. -/

namespace Sys2Proof.Machine

/-! ### Seen from before a read of memory -/

/-- A read of memory leaves the cells alone, so it does not matter on which side of it they are compared. -/
theorem memoryKept_memRead_iff (s t : State) (a : Word) : MemoryKept (s.memRead a) t ↔ MemoryKept s t := by
  rw [MemoryKept, State.memRead_mem, MemoryKept]

theorem State.memRead_memoryKept (s : State) (a : Word) : MemoryKept s (s.memRead a) :=
  (memoryKept_memRead_iff s _ a).mp fun _ => rfl

/-- STI's counterpart of `ProducesResult.of_memRead`. -/
theorem StoresOnly.of_memRead {s t : State} {a b v : Word} (h : StoresOnly b v (s.memRead a) t) : StoresOnly b v s t := by
  simpa [StoresOnly, RegsKept, CycleKept] using h

/-- The pointer's read, whether at a device or not, does not disturb a second read at an ordinary address. -/
theorem State.memRead_loadValue_array {s : State} {b : Word} (h : s.isDevice b = false) (a : Word) :
    (s.memRead a).loadValue b = s.mem.read b := by
  rw [State.loadValue_array _ ((s.memRead_isDevice a b).trans h), State.memRead_mem]

/-! ### The shared ends -/

/-- The shared end of LD, LDI and LDR: the result write after the read makes no access of its own. -/
theorem State.loadFrom_outcome_access (s : State) (dr : Reg) (ea : Word) :
    ∃ t, s.loadFrom dr ea = .next t ∧ ProducesResult dr (s.loadValue ea) s t ∧ t.mar = ea ∧ t.mdr = s.loadValue ea ∧
      MemoryKept s t ∧ PortAfterRead ea (s.loadValue ea) s t ∧
        (s.isDevice ea = false → s.loadValue ea = s.mem.read ea) := by
  obtain ⟨hmar, hmdr, hmem, -⟩ := (s.memRead ea).writeResult_noAccess dr (s.loadValue ea)
  exact ⟨_, s.loadFrom_eq dr ea, ((s.memRead ea).writeResult_produces dr (s.loadValue ea)).of_memRead,
    hmar.trans (s.memRead_mar ea), hmdr.trans (s.memRead_mdr ea), (memoryKept_memRead_iff s _ ea).mp hmem, s.memRead_port ea,
    s.loadValue_array⟩

/-- The shared end of ST, STI and STR. -/
theorem State.storeTo_outcome (s : State) (sr : Reg) (ea : Word) :
    ∃ t, s.storeTo sr ea = .next t ∧ StoresOnly ea (s.reg sr) s t ∧ Stores ea (s.reg sr) s t :=
  ⟨_, s.storeTo_eq sr ea, s.memWrite_storesOnly _ _ _, s.memWrite_stores _ _ _ _⟩

/-! ### Loads and LEA -/

/-- Settles O30: LD is the shared load at the PC-relative address. -/
theorem ldResult : Obligations.LdResult := by
  unfold Obligations.LdResult
  refine ⟨fun w dr offset9 => decode_eq_valid_iff_eq_encode rfl w, ?_⟩
  rintro dr offset9 s _ _ rfl rfl
  rw [exec_ld]
  exact s.loadFrom_outcome_access _ _

/-- Settles O31: LDI is the shared load at the pointer, begun after the pointer's own read; its frame is carried back over that
read. -/
theorem ldiResult : Obligations.LdiResult := by
  unfold Obligations.LdiResult
  refine ⟨fun w dr offset9 => decode_eq_valid_iff_eq_encode rfl w, ?_⟩
  rintro dr offset9 s ea _ _ hea rfl rfl
  have hexec : exec (.ldi dr offset9) s = (s.memRead ea).loadFrom dr (s.loadValue ea) := hea ▸ exec_ldi dr offset9 s
  obtain ⟨t, ht, hres, hmar, hmdr, hmem, hport, -⟩ := (s.memRead ea).loadFrom_outcome_access dr (s.loadValue ea)
  refine ⟨t, hexec.trans ht, hres.of_memRead, hmar, hmdr, (memoryKept_memRead_iff s t ea).mp hmem, s.memRead_port ea, hport,
    fun hd hdp => ?_⟩
  rw [State.memRead_loadValue_array hdp, s.loadValue_array hd]

/-- Settles O32: LDR is the shared load at base plus offset, an address computed before the result is written. -/
theorem ldrResult : Obligations.LdrResult := by
  unfold Obligations.LdrResult
  refine ⟨fun w dr base offset6 => decode_eq_valid_iff_eq_encode rfl w, ?_⟩
  rintro dr base offset6 s _ _ rfl rfl
  rw [exec_ldr]
  exact s.loadFrom_outcome_access _ _

/-- Settles O33: LEA ends as ADD, AND and NOT do, with the address for the value. -/
theorem leaResult : Obligations.LeaResult := by
  unfold Obligations.LeaResult
  refine ⟨fun w dr offset9 => decode_eq_valid_iff_eq_encode rfl w, fun dr offset9 s => ?_⟩
  rw [exec_lea]
  exact s.writeResult_outcome_noAccess _ _

/-! ### Stores -/

/-- Settles O34: ST is the shared store at the PC-relative address. -/
theorem stStores : Obligations.StStores := by
  unfold Obligations.StStores
  refine ⟨fun w sr offset9 => decode_eq_valid_iff_eq_encode rfl w, fun sr offset9 s => ?_⟩
  rw [exec_st]
  exact s.storeTo_outcome _ _

/-- Settles O35: STI is the shared store at the pointer, begun after the pointer's read, which keeps the source register. -/
theorem stiStores : Obligations.StiStores := by
  unfold Obligations.StiStores
  refine ⟨fun w sr offset9 => decode_eq_valid_iff_eq_encode rfl w, ?_⟩
  rintro sr offset9 s ea _ hea rfl
  have hexec : exec (.sti sr offset9) s = (s.memRead ea).storeTo sr (s.loadValue ea) := hea ▸ exec_sti sr offset9 s
  obtain ⟨t, ht, honly, hstores⟩ := (s.memRead ea).storeTo_outcome sr (s.loadValue ea)
  rw [State.memRead_reg] at honly hstores
  exact ⟨t, hexec.trans ht, honly.of_memRead, hstores, s.memRead_port ea, s.memRead_memoryKept ea, s.loadValue_array⟩

/-- Settles O36: STR is the shared store at base plus offset; no register is written, so the base and the source may be one. -/
theorem strStores : Obligations.StrStores := by
  unfold Obligations.StrStores
  refine ⟨fun w sr base offset6 => decode_eq_valid_iff_eq_encode rfl w, fun sr base offset6 s => ?_⟩
  rw [exec_str]
  exact s.storeTo_outcome _ _

end Sys2Proof.Machine
end

section
/-! RTI under StackWord: the check reads the word at R6 and not the PSR, and the pop replaces the whole PSR (R235). -/

namespace Sys2Proof.Machine

/-! ### The operations of RTI from two states that differ in the PSR -/

/-- MemRead neither uses nor changes the PSR (R63). -/
theorem State.memRead_withPsr (s : State) (psr a : Word) :
    State.memRead { s with psr := psr } a = { s.memRead a with psr := psr } := by
  rw [State.memRead_eq, State.memRead_eq]
  rfl

/-- The pop loads the PSR whole, so the one before it leaves no trace (R233). -/
theorem State.popFrame_withPsr (s : State) (psr w0 : Word) : State.popFrame { s with psr := psr } w0 = s.popFrame w0 := by
  rw [State.popFrame_eq, State.popFrame_eq, State.memRead_withPsr]
  rfl

/-- A completed RTI returns to the word at R6. -/
theorem State.popFrame_pc (s : State) (w0 : Word) : (s.popFrame w0).pc = w0 := by rw [State.popFrame_eq]

/-! ### The two ends of RTI under StackWord -/

theorem rtiAllowed_stackWord_iff {s : State} (hc : s.cfg.rtiPrivCheck = .stackWord) :
    rtiAllowed s = true ↔ (s.loadValue (s.reg .r6)).getLsbD 15 = false := by
  simp [rtiAllowed, hc]

/-- The word at R6, and with it the check, is the same under every PSR (R235). -/
theorem exec_rti_stackWord_allowed_withPsr {s : State} (hc : s.cfg.rtiPrivCheck = .stackWord)
    (h : (s.loadValue (s.reg .r6)).getLsbD 15 = false) (psr : Word) :
    exec .rti { s with psr := psr } = exec .rti s := by
  have hs : rtiAllowed s = true := (rtiAllowed_stackWord_iff hc).mpr h
  have hpsr : rtiAllowed { s with psr := psr } = true := (rtiAllowed_stackWord_iff (s := { s with psr := psr }) hc).mpr h
  rw [exec_rti_allowed hpsr, State.memRead_withPsr, State.popFrame_withPsr, exec_rti_allowed hs]
  rfl

/-- The violation pops nothing, so each state keeps its own PSR (R234). -/
theorem exec_rti_stackWord_violation_withPsr {s : State} (hc : s.cfg.rtiPrivCheck = .stackWord)
    (h : (s.loadValue (s.reg .r6)).getLsbD 15 = true) (psr : Word) :
    exec .rti { s with psr := psr } =
      .next { (s.memRead (s.reg .r6)).report .privilegeViolation Classification.none with psr := psr } := by
  rw [exec_rti_stackWord_violation (s := { s with psr := psr }) hc h, State.memRead_withPsr]
  rfl

/-- Settles O41: bit 15 of the word at R6, the same in both states, decides between the pop and the violation. -/
theorem rtiUnderStackWordIgnoresTheMode : Obligations.RtiUnderStackWordIgnoresTheMode := by
  unfold Obligations.RtiUnderStackWordIgnoresTheMode
  intro s psr hc
  cases h : (s.loadValue (s.reg .r6)).getLsbD 15 with
  | true =>
    exact ⟨_, exec_rti_stackWord_violation hc h, nofun, fun _ => exec_rti_stackWord_violation_withPsr hc h psr⟩
  | false =>
    have hexec := exec_rti_allowed ((rtiAllowed_stackWord_iff hc).mpr h)
    refine ⟨_, hexec, fun _ => ⟨(exec_rti_stackWord_allowed_withPsr hc h psr).trans hexec, ?_⟩, fun hne => absurd rfl hne⟩
    rw [State.report_pc, State.popFrame_pc, ← Nat.not_le, ← getLsbD_15_iff, h]
    exact Bool.false_ne_true

end Sys2Proof.Machine
end

section
/-! A step over empty memory (R294): 0x0000 is a BR to the next address, so the machine goes there whether it is taken or not. -/

namespace Sys2Proof.Machine

/-- With the device addresses as memory a core access never goes to the port (R66). -/
theorem State.isDevice_of_asMemory {s : State} (h : s.cfg.ioMode = .asMemory) (a : Word) : s.isDevice a = false := by
  simp [State.isDevice, h]

/-- The fetch of a step at an ordinary address makes no device transaction. -/
theorem State.beginStep_portKept {s : State} (h : s.isDevice s.pc = false) : PortKept s s.beginStep := by
  simpa [PortAfterRead, h] using s.beginStep_port

/-- R294's own word: BR with mask 000 and offset 0. -/
theorem decode_zero : decode 0x0000 = .valid (.br 0 0) := by decide

/-- Taken or not, BR completes with no flag and at most the PC moves (R180). -/
theorem exec_br_outcome (nzp : BitVec 3) (offset9 : BitVec 9) (s : State) :
    ∃ t, exec (.br nzp offset9) s = .next t ∧ OnlyPcMoves s t ∧ t.flags = Classification.none ∧
      t.pc = if s.branchTaken nzp then s.pc + sext16 offset9 else s.pc := by
  cases h : s.branchTaken nzp with
  | true => exact ⟨_, exec_br_taken h offset9, s.writePc_onlyPcMoves _ _, rfl, rfl⟩
  | false =>
    exact ⟨_, exec_br_not_taken h offset9, ⟨fun _ => rfl, rfl, ⟨rfl, rfl, fun _ => rfl, rfl, rfl⟩, ⟨rfl, rfl, rfl⟩, rfl⟩,
      rfl, rfl⟩

/-- A branch by 0 stays at the PC on entry, so neither the PSR nor BR_ZERO_MASK_TAKEN matters. -/
theorem exec_br_zeroOffset (nzp : BitVec 3) (s : State) :
    ∃ t, exec (.br nzp 0) s = .next t ∧ OnlyPcMoves s t ∧ t.flags = Classification.none ∧ t.pc = s.pc := by
  obtain ⟨t, ht, hframe, hflags, hpc⟩ := exec_br_outcome nzp 0 s
  exact ⟨t, ht, hframe, hflags, by simpa [sext16] using hpc⟩

/-- Settles O57: the fetch reads 0x0000 from the array, and the BR it decodes to leaves the incremented PC as it is. -/
theorem emptyMemoryStepOnlyMovesThePc : Obligations.EmptyMemoryStepOnlyMovesThePc := by
  unfold Obligations.EmptyMemoryStepOnlyMovesThePc
  intro s hio hempty
  have hdevice : s.isDevice s.pc = false := State.isDevice_of_asMemory hio s.pc
  have hword : s.loadValue s.pc = 0x0000 := (s.loadValue_array hdevice).trans (hempty s.pc)
  have hstep : step s = exec (.br 0 0) s.beginStep := step_of_valid (by rw [hword, decode_zero])
  obtain ⟨t, ht, ⟨hregs, hpsr, ⟨-, -, hmem, hlog, hdraws⟩, ⟨-, -, hcfg⟩, hstatus⟩, hflags, hpc⟩ :=
    exec_br_zeroOffset 0 s.beginStep
  obtain ⟨hlog', hdraws'⟩ := State.beginStep_portKept hdevice
  exact ⟨t, hstep.trans ht, hstatus, hflags, hpc.trans s.beginStep_pc, hpsr.trans s.beginStep_psr,
    fun r => (hregs r).trans (s.beginStep_reg r), fun a => (hmem a).trans (by rw [s.beginStep_mem]),
    ⟨hlog.trans hlog', hdraws.trans hdraws'⟩, hcfg.trans s.beginStep_cfg⟩

end Sys2Proof.Machine
end

section
/-! The round trip between words and instructions, and the extension of a field to 16 bits. -/

namespace Sys2Proof

/-- Settles O1, by the equivalence of decoding to an instruction and being its word. -/
theorem decodeOfEncodeIsTheInstruction : Obligations.DecodeOfEncodeIsTheInstruction := by
  unfold Obligations.DecodeOfEncodeIsTheInstruction
  intro i hi
  exact (decode_eq_valid_iff_eq_encode hi (encode i)).mpr rfl

/-- The decoder builds no term outside the well-formed ones: a JMP through R7 is read as RET. -/
theorem wellFormed_of_decode {w : Word} {i : Instr} (h : decode w = .valid i) : i.wellFormed = true := by
  obtain ⟨hi, -⟩ := (decode_eq_valid_iff_rowFields w i).mp h
  exact hi

/-- Settles O2, the same equivalence from the other side. -/
theorem encodeOfDecodeIsTheWord : Obligations.EncodeOfDecodeIsTheWord := by
  unfold Obligations.EncodeOfDecodeIsTheWord
  intro w i h
  have hi : i.wellFormed = true := wellFormed_of_decode h
  exact ⟨hi, ((decode_eq_valid_iff_eq_encode hi w).mp h).symm⟩

/-- Settles O4: thirteen closed words. -/
theorem writtenOutWordsDecode : Obligations.WrittenOutWordsDecode := by
  unfold Obligations.WrittenOutWordsDecode
  decide

theorem sext16_getLsbD {n k : Nat} (f : BitVec n) (hk : k < 16) :
    (sext16 f).getLsbD k = if k < n then f.getLsbD k else f.getLsbD (n - 1) := by
  rw [sext16, BitVec.getLsbD_signExtend, decide_eq_true hk, Bool.true_and, BitVec.msb_eq_getLsbD_last]

theorem zext16_getLsbD {n k : Nat} (f : BitVec n) (hk : k < 16) :
    (zext16 f).getLsbD k = if k < n then f.getLsbD k else false := by
  by_cases hn : k < n
  · simp [zext16, hk, hn]
  · simp [zext16, hn, BitVec.getLsbD_of_ge f k (by omega)]

/-- Settles O5; the bounds on the width are not needed. -/
theorem fieldExtensionBits : Obligations.FieldExtensionBits := by
  unfold Obligations.FieldExtensionBits
  intro n f _ _ k hk
  exact ⟨sext16_getLsbD f hk, zext16_getLsbD f hk⟩

end Sys2Proof
end

section
/-! RTI, TRAP, BR and the reserved opcode: their words and what each leaves. -/

namespace Sys2Proof.Machine

/-! ### BR -/

/-- Settles O24: `State.branchTaken_iff` turns the bitwise test into the model's, and not taken the PC stays. -/
theorem branchTarget : Obligations.BranchTarget := by
  unfold Obligations.BranchTarget
  refine ⟨fun w nzp offset9 => decode_eq_valid_iff_eq_encode rfl w, fun nzp offset9 s => ?_⟩
  obtain ⟨t, ht, hframe, -, hpc⟩ := exec_br_outcome nzp offset9 s
  rw [← State.branchTaken_iff]
  exact ⟨t, ht, hframe, fun htaken => hpc.trans (if_pos htaken), fun hnot => hpc.trans (if_neg hnot)⟩

/-! ### TRAP -/

theorem decode_trapBits {w : Word} (ho : opcodeOf w = .trap) (hbits : w.toNat / 256 % 16 ≠ 0) :
    decode w = .invalid .trapBits := by
  simp [decode, ho, bits11to8_eq_zero_iff, hbits]

/-- TRAP writes the link, makes the one read of the vector, and jumps to the word read (R230). -/
theorem exec_trap_outcome (trapvect8 : BitVec 8) (s : State) :
    ∃ t, exec (.trap trapvect8) s = .next t ∧ Links s t ∧ t.pc = s.loadValue (zext16 trapvect8) ∧
      t.mar = zext16 trapvect8 ∧ t.mdr = s.loadValue (zext16 trapvect8) ∧
      PortAfterRead (zext16 trapvect8) (s.loadValue (zext16 trapvect8)) s t := by
  have hlink (a : Word) : s.link.loadValue a = s.loadValue a := s.link_loadValue a
  have hread := s.link.memRead_port (zext16 trapvect8)
  rw [hlink] at hread
  refine ⟨_, exec_trap trapvect8 s, ⟨?link, fun r hr => ?others, ?psr, fun a => ?mem, ⟨?ir, ?record, ?cfg⟩, rfl⟩, rfl,
    ?mar, ?mdr, hread⟩
  case link => simp [State.link_reg]
  case others => simp [State.link_reg, hr]
  case mdr => simp [hlink]
  all_goals simp [State.link]

/-- Settles O38; the word's high byte is the opcode and the four bits that R111 checks. -/
theorem trapLinksAndVectors : Obligations.TrapLinksAndVectors := by
  unfold Obligations.TrapLinksAndVectors
  refine ⟨fun w trapvect8 => decode_eq_valid_iff_eq_encode rfl w, fun w ho hbits => ?invalid, ?exec⟩
  case invalid => exact decode_trapBits ((opcodeOf_eq_iff w .trap).mpr ho) (by omega)
  case exec =>
    rintro trapvect8 s _ rfl
    obtain ⟨t, ht, hlinks, hpc, hmar, hmdr, hport⟩ := exec_trap_outcome trapvect8 s
    exact ⟨t, ht, hlinks, hpc, hmar, hmdr, hport, fun hd => hpc.trans (s.loadValue_array hd)⟩

/-! ### RTI -/

/-- R232's two checks: the bit that RTI_PRIV_CHECK selects, clear when the check passes. -/
theorem rtiAllowed_eq_not_iff (s : State) (b : Bool) :
    rtiAllowed s = !b ↔
      (s.cfg.rtiPrivCheck = .stackWord ∧ (s.loadValue (s.reg .r6)).getLsbD 15 = b) ∨
        (s.cfg.rtiPrivCheck = .psrMode ∧ s.psr.getLsbD 15 = b) := by
  cases h : s.cfg.rtiPrivCheck <;> simp [rtiAllowed, h]

/-- The two pops of RTI: both reads, the two words where they go, and R6 moved by two (R233). -/
theorem exec_rti_pops {s : State} (h : rtiAllowed s = true) :
    ∃ t, exec .rti s = .next t ∧ t.status = .ok ∧ t.pc = s.loadValue (s.reg .r6) ∧
      t.psr = (s.memRead (s.reg .r6)).loadValue (s.reg .r6 + 1) ∧ t.reg .r6 = s.reg .r6 + 2 ∧
      RegsKeptBut .r6 s t ∧ MemoryKept s t ∧ CycleKept s t ∧ t.mar = s.reg .r6 + 1 ∧
      t.mdr = (s.memRead (s.reg .r6)).loadValue (s.reg .r6 + 1) ∧
      PortAfterRead (s.reg .r6 + 1) ((s.memRead (s.reg .r6)).loadValue (s.reg .r6 + 1)) (s.memRead (s.reg .r6)) t := by
  have hport := (s.memRead (s.reg .r6)).memRead_port (s.reg .r6 + 1)
  refine ⟨_, exec_rti_allowed h, rfl, ?_⟩
  rw [State.popFrame_eq, State.memRead_reg]
  refine ⟨rfl, rfl, ?sp, fun r hr => ?others, fun a => ?mem, ⟨?ir, ?record, ?cfg⟩, ?mar, ?mdr, hport⟩
  case sp => simp [State.reg]
  case others => simp [State.reg, hr]
  all_goals simp

/-- A failed check leaves all but mar, mdr, the bus and the port (R234). -/
theorem exec_rti_violates {s : State} (h : rtiAllowed s = false) :
    ∃ t, exec .rti s = .next t ∧ FaultsKeeping .privilegeViolation s t ∧ t.pc = s.pc ∧ CycleKept s t ∧
      (s.cfg.rtiPrivCheck = .stackWord → t.mar = s.reg .r6 ∧ t.mdr = s.loadValue (s.reg .r6) ∧
        PortAfterRead (s.reg .r6) (s.loadValue (s.reg .r6)) s t) ∧
      (s.cfg.rtiPrivCheck = .psrMode → NoAccess s t) := by
  obtain ⟨hc, hbit⟩ | ⟨hc, hbit⟩ := (rtiAllowed_eq_not_iff s true).mp h
  · refine ⟨_, exec_rti_stackWord_violation hc hbit, ⟨rfl, rfl, fun r => ?_, ?_, fun a => ?_, ?_⟩, ?_, ⟨?_, ?_, ?_⟩,
      fun _ => ⟨?_, ?_, s.memRead_port _⟩, fun hc' => nomatch hc.symm.trans hc'⟩
    all_goals simp
  · exact ⟨_, exec_rti_psrMode_violation hc hbit, ⟨rfl, rfl, fun _ => rfl, rfl, fun _ => rfl, rfl⟩, rfl, ⟨rfl, rfl, rfl⟩,
      fun hc' => (nomatch hc.symm.trans hc'), fun _ => ⟨rfl, rfl, fun _ => rfl, rfl, rfl⟩⟩

/-- Settles O39: its hypothesis is that the check passes, and an ordinary address is read from the array. -/
theorem rtiPopsPcAndPsr : Obligations.RtiPopsPcAndPsr := by
  unfold Obligations.RtiPopsPcAndPsr
  refine ⟨fun w => decode_eq_valid_iff_eq_encode rfl w, ?_⟩
  rintro s _ _ _ rfl rfl rfl hcheck
  obtain ⟨t, ht, hstatus, hpc, hpsr, hsp, hregs, hmem, hcycle, hmar, hmdr, hport⟩ :=
    exec_rti_pops ((rtiAllowed_eq_not_iff s false).mpr hcheck)
  refine ⟨t, ht, hstatus, hpc, hpsr, hsp, hregs, hmem, hcycle, hmar, hmdr, s.memRead_port _, hport, fun hd hd' => ⟨?_, ?_⟩⟩
  · rw [hpc, s.loadValue_array hd]
  · rw [hpsr, State.memRead_loadValue_array hd']

/-- Settles O40: its hypothesis is that the check fails. -/
theorem rtiPrivilegeViolationPopsNothing : Obligations.RtiPrivilegeViolationPopsNothing := by
  unfold Obligations.RtiPrivilegeViolationPopsNothing
  intro s hcheck
  exact exec_rti_violates ((rtiAllowed_eq_not_iff s true).mpr hcheck)

/-! ### The reserved opcode -/

theorem exec_reserved_outcome (payload : BitVec 12) (s : State) :
    ∃ t, exec (.reserved payload) s = .next t ∧ FaultsKeeping .reservedOpcode s t ∧ t.pc = s.pc - 1 ∧ NoAccess s t ∧
      CycleKept s t :=
  ⟨_, exec_reserved payload s, ⟨rfl, rfl, fun _ => rfl, rfl, fun _ => rfl, rfl⟩, rfl,
    ⟨rfl, rfl, fun _ => rfl, rfl, rfl⟩, rfl, rfl, rfl⟩

/-- Settles O42. -/
theorem reservedOpcodeRestoresThePc : Obligations.ReservedOpcodeRestoresThePc := by
  unfold Obligations.ReservedOpcodeRestoresThePc
  exact ⟨fun w payload => decode_eq_valid_iff_eq_encode rfl w, exec_reserved_outcome⟩

end Sys2Proof.Machine
end

section
/-! What exec can do, said once per kind of instruction, and the frame rules over all instructions that follow from it. -/

namespace Sys2Proof.Machine

/-! ### The kinds of instruction -/

/-- A result: `dr` gets a value, and the cells keep theirs. -/
def ResultEffect (dr : Reg) (s t : State) : Prop := (∃ v, ProducesResult dr v s t) ∧ MemoryKept s t

/-- A store: `v` is delivered at `a`, and the other cells keep their values, at a device address every cell. -/
def StoreEffect (a v : Word) (s t : State) : Prop :=
  StoresOnly a v s t ∧ ∀ b, t.mem.read b = if b = a ∧ s.isDevice a = false then v else s.mem.read b

/-- The effect of an instruction, by its kind. -/
def Effect (i : Instr) (s t : State) : Prop :=
  match i with
  | .addReg dr _ _ | .addImm dr _ _ | .andReg dr _ _ | .andImm dr _ _ | .not dr _ | .lea dr _ | .ld dr _ | .ldr dr _ _
  | .ldi dr _ => ResultEffect dr s t
  | .st _ _ | .sti _ _ | .str _ _ _ => ∃ a v, storeOf i s = some (a, v) ∧ StoreEffect a v s t
  | .br _ _ | .jmp _ _ | .ret _ => OnlyPcMoves s t
  | .jsr _ | .jsrr _ _ | .trap _ => Links s t
  | .rti => RegsKeptBut .r6 s t ∧ MemoryKept s t ∧ CycleKept s t
  | .reserved _ => FaultsKeeping .reservedOpcode s t ∧ NoAccess s t ∧ CycleKept s t

/-! ### Each kind's shared end -/

theorem State.writeResult_effect (s : State) (dr : Reg) (v : Word) :
    ∃ t, s.writeResult dr v = .next t ∧ ResultEffect dr s t := by
  obtain ⟨t, ht, hres, -, -, hmem, -⟩ := s.writeResult_outcome_noAccess dr v
  exact ⟨t, ht, ⟨v, hres⟩, hmem⟩

theorem State.loadFrom_effect (s : State) (dr : Reg) (ea : Word) :
    ∃ t, s.loadFrom dr ea = .next t ∧ ResultEffect dr s t := by
  obtain ⟨t, ht, hres, -, -, hmem, -⟩ := s.loadFrom_outcome_access dr ea
  exact ⟨t, ht, ⟨_, hres⟩, hmem⟩

/-- LDI's read of the pointer does not show in its effect. -/
theorem ResultEffect.of_memRead {s t : State} {a : Word} {dr : Reg} (h : ResultEffect dr (s.memRead a) t) :
    ResultEffect dr s t := by
  obtain ⟨⟨v, hres⟩, hmem⟩ := h
  exact ⟨⟨v, hres.of_memRead⟩, (memoryKept_memRead_iff s t a).mp hmem⟩

theorem State.storeTo_effect (s : State) (sr : Reg) (ea : Word) :
    ∃ t, s.storeTo sr ea = .next t ∧ StoreEffect ea (s.reg sr) s t := by
  obtain ⟨t, ht, honly, hcells, -⟩ := s.storeTo_outcome sr ea
  exact ⟨t, ht, honly, hcells⟩

theorem StoreEffect.of_memRead {s t : State} {a b v : Word} (h : StoreEffect b v (s.memRead a) t) : StoreEffect b v s t := by
  obtain ⟨honly, hcells⟩ := h
  exact ⟨honly.of_memRead, by simpa using hcells⟩

/-- What RTI's pop and its violation have in common. -/
theorem exec_rti_frame (s : State) :
    ∃ t, exec .rti s = .next t ∧ RegsKeptBut .r6 s t ∧ MemoryKept s t ∧ CycleKept s t := by
  cases h : rtiAllowed s with
  | true =>
    obtain ⟨t, ht, -, -, -, -, hregs, hmem, hcycle, -⟩ := exec_rti_pops h
    exact ⟨t, ht, hregs, hmem, hcycle⟩
  | false =>
    obtain ⟨t, ht, ⟨-, -, hregs, -, hmem, -⟩, -, hcycle, -⟩ := exec_rti_violates h
    exact ⟨t, ht, fun r _ => hregs r, hmem, hcycle⟩

theorem exec_effect (i : Instr) (s : State) : ∃ t, exec i s = .next t ∧ Effect i s t := by
  cases i with
  | addReg | addImm | andReg | andImm | not | lea => exact s.writeResult_effect _ _
  | ld | ldr => exact s.loadFrom_effect _ _
  | ldi dr offset9 =>
    obtain ⟨t, ht, heffect⟩ := (s.memRead (s.pc + sext16 offset9)).loadFrom_effect dr (s.loadValue (s.pc + sext16 offset9))
    exact ⟨t, (exec_ldi dr offset9 s).trans ht, heffect.of_memRead⟩
  | st | str =>
    obtain ⟨t, ht, heffect⟩ := s.storeTo_effect _ _
    exact ⟨t, ht, _, _, rfl, heffect⟩
  | sti sr offset9 =>
    obtain ⟨t, ht, heffect⟩ := (s.memRead (s.pc + sext16 offset9)).storeTo_effect sr (s.loadValue (s.pc + sext16 offset9))
    rw [State.memRead_reg] at heffect
    exact ⟨t, (exec_sti sr offset9 s).trans ht, _, _, rfl, heffect.of_memRead⟩
  | br nzp offset9 =>
    obtain ⟨t, ht, hframe, -⟩ := exec_br_outcome nzp offset9 s
    exact ⟨t, ht, hframe⟩
  | jmp | ret =>
    obtain ⟨t, ht, hframe, -⟩ := s.jumpThrough_outcome _
    exact ⟨t, ht, hframe⟩
  | jsr offset11 => exact ⟨_, exec_jsr offset11 s, s.link_writePc_links _ _⟩
  | jsrr ignored base => exact ⟨_, exec_jsrr ignored base s, s.link_writePc_links _ _⟩
  | trap trapvect8 =>
    obtain ⟨t, ht, hlinks, -⟩ := exec_trap_outcome trapvect8 s
    exact ⟨t, ht, hlinks⟩
  | rti => exact exec_rti_frame s
  | reserved payload =>
    obtain ⟨t, ht, hfault, -, hframe⟩ := exec_reserved_outcome payload s
    exact ⟨t, ht, hfault, hframe⟩

theorem effect_of_exec {i : Instr} {s t : State} (h : exec i s = .next t) : Effect i s t := by
  obtain ⟨u, hu, heffect⟩ := exec_effect i s
  cases h.symm.trans hu
  exact heffect

/-! ### Rules over all instructions -/

namespace Effect

variable {i : Instr} {s t : State}

/-- No execute phase writes ir, the record or the parameters. -/
theorem cycleKept (h : Effect i s t) : CycleKept s t := by
  cases i with
  | addReg | addImm | andReg | andImm | not | lea | ld | ldr | ldi =>
    obtain ⟨⟨v, -, -, -, -, -, hcycle, -⟩, -⟩ := h
    exact hcycle
  | st | sti | str =>
    obtain ⟨a, v, -, ⟨-, -, -, -, -, -, hcycle, -⟩, -⟩ := h
    exact hcycle
  | br | jmp | ret =>
    obtain ⟨-, -, -, hcycle, -⟩ := h
    exact hcycle
  | jsr | jsrr | trap =>
    obtain ⟨-, -, -, -, hcycle, -⟩ := h
    exact hcycle
  | rti =>
    obtain ⟨-, -, hcycle⟩ := h
    exact hcycle
  | reserved =>
    obtain ⟨-, -, hcycle⟩ := h
    exact hcycle

theorem reg_kept (h : Effect i s t) {r : Reg} (hr : ¬writesReg i r) : t.reg r = s.reg r := by
  cases i with
  | addReg | addImm | andReg | andImm | not | lea | ld | ldr | ldi =>
    obtain ⟨⟨v, -, hregs, -⟩, -⟩ := h
    exact hregs r hr
  | st | sti | str =>
    obtain ⟨a, v, -, ⟨-, -, -, hregs, -⟩, -⟩ := h
    exact hregs r
  | br | jmp | ret =>
    obtain ⟨hregs, -⟩ := h
    exact hregs r
  | jsr | jsrr | trap =>
    obtain ⟨-, hregs, -⟩ := h
    exact hregs r hr
  | rti =>
    obtain ⟨hregs, -⟩ := h
    exact hregs r hr
  | reserved =>
    obtain ⟨⟨-, -, hregs, -⟩, -⟩ := h
    exact hregs r

/-- The control transfers and the reserved opcode are the instructions that `writesPc` names. -/
theorem pc_kept (h : Effect i s t) (hi : writesPc i = false) : t.pc = s.pc ∧ t.status = .ok := by
  cases i with
  | addReg | addImm | andReg | andImm | not | lea | ld | ldr | ldi =>
    obtain ⟨⟨v, -, -, -, -, hpc, -, hstatus⟩, -⟩ := h
    exact ⟨hpc, hstatus⟩
  | st | sti | str =>
    obtain ⟨a, v, -, ⟨-, -, -, -, -, hpc, -, hstatus⟩, -⟩ := h
    exact ⟨hpc, hstatus⟩
  | _ => cases hi

theorem memory_kept (h : Effect i s t) (hi : storeOf i s = none) : MemoryKept s t := by
  cases i with
  | addReg | addImm | andReg | andImm | not | lea | ld | ldr | ldi =>
    obtain ⟨-, hmem⟩ := h
    exact hmem
  | st | sti | str => cases hi
  | br | jmp | ret =>
    obtain ⟨-, -, ⟨-, -, hmem, -⟩, -⟩ := h
    exact hmem
  | jsr | jsrr | trap =>
    obtain ⟨-, -, -, hmem, -⟩ := h
    exact hmem
  | rti =>
    obtain ⟨-, hmem, -⟩ := h
    exact hmem
  | reserved =>
    obtain ⟨⟨-, -, -, -, hmem, -⟩, -⟩ := h
    exact hmem

theorem stores (h : Effect i s t) {a v : Word} (hi : storeOf i s = some (a, v)) : StoreEffect a v s t := by
  cases i with
  | st | sti | str =>
    obtain ⟨a', v', hstore, heffect⟩ := h
    cases hi.symm.trans hstore
    exact heffect
  | _ => cases hi

end Effect

/-- The host's index of a register. -/
theorem hostReg_toBits (r : Reg) : hostReg r.toBits.toNat = some r := by cases r <;> rfl

theorem hostSetRegister_of_hostReg {i : Nat} {r : Reg} (h : hostReg i = some r) (v : Word) (s : State) :
    ∃ t, hostSetRegister i v s = .next t ∧ t.reg r = v ∧ RegsKeptBut r s t ∧ t = { s with regs := t.regs } := by
  refine ⟨{ s with regs := s.regs.set r v }, by simp [hostSetRegister, h], ?_, fun d hd => ?_, rfl⟩
  all_goals simp [State.reg, *]

/-- Settles O43: what exec writes by its effect, what set_register writes by its index. -/
theorem registersAreWrittenOnlyAsListed : Obligations.RegistersAreWrittenOnlyAsListed := by
  unfold Obligations.RegistersAreWrittenOnlyAsListed
  refine ⟨fun i s => ?_, fun r v s => ?_⟩
  · obtain ⟨t, ht, heffect⟩ := exec_effect i s
    exact ⟨t, ht, fun r => heffect.reg_kept⟩
  · obtain ⟨t, ht, hreg, hothers, -⟩ := hostSetRegister_of_hostReg (hostReg_toBits r) v s
    exact ⟨_, t, r.toBits.isLt, ht, hreg, hothers⟩

/-- Settles O44. -/
theorem pcIsLeftAloneByTheOthers : Obligations.PcIsLeftAloneByTheOthers := by
  unfold Obligations.PcIsLeftAloneByTheOthers
  intro i s
  obtain ⟨t, ht, heffect⟩ := exec_effect i s
  exact ⟨t, ht, heffect.pc_kept⟩

/-- Settles O45, by whether the instruction has a store. -/
theorem memoryIsChangedOnlyByStores : Obligations.MemoryIsChangedOnlyByStores := by
  unfold Obligations.MemoryIsChangedOnlyByStores
  intro i s
  obtain ⟨t, ht, heffect⟩ := exec_effect i s
  refine ⟨t, ht, fun b => ?_⟩
  cases hi : storeOf i s with
  | none => exact heffect.memory_kept hi b
  | some store =>
    obtain ⟨-, hcells⟩ := heffect.stores hi
    exact hcells b

/-- Settles O49: the store leaves the PC, so the next fetch is at the stored cell, still at an ordinary address. -/
theorem nextFetchSeesTheStore : Obligations.NextFetchSeesTheStore := by
  unfold Obligations.NextFetchSeesTheStore
  intro i s t v hi hd ht
  obtain ⟨⟨-, -, -, -, -, hpc, ⟨-, -, hcfg⟩, -⟩, hcells⟩ := (effect_of_exec ht).stores hi
  refine ⟨hpc, ?_⟩
  calc t.fetch.ir
    _ = t.loadValue s.pc := by rw [State.fetch_ir, hpc]
    _ = t.mem.read s.pc := t.loadValue_array ((State.isDevice_congr hcfg s.pc).trans hd)
    _ = v := (hcells s.pc).trans (if_pos ⟨rfl, hd⟩)

/-- Settles O29: the call's effect is the link, and RET jumps through it. -/
theorem returnComesBackAfterTheCall : Obligations.ReturnComesBackAfterTheCall := by
  unfold Obligations.ReturnComesBackAfterTheCall
  intro call s t u ignored hcall ht hr7
  have hlink : t.reg .r7 = s.pc := by
    have heffect := effect_of_exec ht
    rcases hcall with ⟨offset11, rfl⟩ | ⟨x, base, rfl⟩ | ⟨trapvect8, rfl⟩
    all_goals
      obtain ⟨hlink, -⟩ := heffect
      exact hlink
  obtain ⟨v, hv, -, hpc, -⟩ := u.jumpThrough_outcome .r7
  exact ⟨v, (exec_ret ignored u).trans hv, hpc.trans (hr7.trans hlink)⟩

/-- LDI through a pointer in the array to a word in the array. -/
theorem exec_ldi_of_array {s : State} {offset9 : BitVec 9} {ea p v : Word} (dr : Reg)
    (hea : s.pc + offset9.signExtend 16 = ea) (hpointer : s.mem.read ea = p) (hword : s.mem.read p = v)
    (hd : s.isDevice ea = false) (hdp : s.isDevice p = false) :
    ∃ t, exec (.ldi dr offset9) s = .next t ∧ t.reg dr = v := by
  obtain ⟨-, hldi⟩ := ldiResult
  have hload : s.loadValue ea = p := (s.loadValue_array hd).trans hpointer
  obtain ⟨t, ht, hres, -⟩ := hldi dr offset9 s ea p _ hea.symm hload.symm rfl
  exact ⟨t, ht, hres.reg_eq.trans ((State.memRead_loadValue_array hdp ea).trans hword)⟩

/-- Settles O37: ST puts the pointer at `a`, and the host's write, at another address, leaves it there. -/
theorem ldiLoadsThroughAStoredPointer : Obligations.LdiLoadsThroughAStoredPointer := by
  unfold Obligations.LdiLoadsThroughAStoredPointer
  rintro s t sr dr offset9 offset9' _ v pc rfl hd hdp hne ht hea
  obtain ⟨⟨-, -, -, -, -, -, ⟨-, -, hcfg⟩, -⟩, hcells⟩ := (effect_of_exec ht).stores rfl
  have hpointer : t.mem.read (s.pc + offset9.signExtend 16) = s.reg sr := (hcells _).trans (if_pos ⟨rfl, hd⟩)
  refine exec_ldi_of_array dr hea (p := s.reg sr) ?_ ?_ ((State.isDevice_congr hcfg _).trans hd)
    ((State.isDevice_congr hcfg _).trans hdp)
  · simp [hostSetPc, hostMemWrite, hne, hpointer]
  · simp [hostSetPc, hostMemWrite]

end Sys2Proof.Machine
end

section
/-! The step as a whole: its two cases, what it keeps and reports, and who can change the codes and the mode. -/

namespace Sys2Proof.Machine

/-! ### The two cases of a step -/

/-- What a step can do: the decode failure of a rejected word, or the meaning of an accepted one (R130). -/
theorem step_cases {s t : State} (h : step s = .next t) :
    (∃ why, decode (s.loadValue s.pc) = .invalid why ∧ s.beginStep.decodeFailure .decodeInvalid = .next t) ∨
      ∃ i, decode (s.loadValue s.pc) = .valid i ∧ exec i s.beginStep = .next t := by
  cases hw : decode (s.loadValue s.pc) with
  | invalid why => exact .inl ⟨why, rfl, (step_of_invalid hw).symm.trans h⟩
  | valid i => exact .inr ⟨i, rfl, (step_of_valid hw).symm.trans h⟩

theorem step_answers (s : State) : ∃ t, step s = .next t := by
  cases hw : decode (s.loadValue s.pc) with
  | invalid why => exact ⟨_, step_of_invalid hw⟩
  | valid i =>
    obtain ⟨t, ht, -⟩ := exec_effect i s.beginStep
    exact ⟨t, (step_of_valid hw).trans ht⟩

theorem State.decodeFailure_next {s t : State} {e : Status} (h : s.decodeFailure e = .next t) :
    t = (s.writePc s.iaddr).report e Classification.none := by
  cases h
  rfl

theorem step_cycleKept {s t : State} (h : step s = .next t) : CycleKept s.beginStep t := by
  obtain ⟨why, -, hfail⟩ | ⟨i, -, hexec⟩ := step_cases h
  · cases State.decodeFailure_next hfail
    exact ⟨rfl, rfl, rfl⟩
  · exact (effect_of_exec hexec).cycleKept

/-- Neither end of a step touches what fetch and decode left in ir, the record and the parameters (R136, R292). -/
theorem step_ir_record_cfg {s t : State} (h : step s = .next t) :
    t.ir = s.loadValue s.pc ∧ t.record = some (recordOf s.pc (s.loadValue s.pc)) ∧ t.cfg = s.cfg := by
  obtain ⟨hir, hrecord, hcfg⟩ := step_cycleKept h
  exact ⟨hir.trans s.beginStep_ir, hrecord.trans s.beginStep_record, hcfg.trans s.beginStep_cfg⟩

/-- Settles O46. -/
theorem parametersAreNeverChanged : Obligations.ParametersAreNeverChanged := by
  unfold Obligations.ParametersAreNeverChanged
  intro s
  obtain ⟨t, ht⟩ := step_answers s
  obtain ⟨-, -, hcfg⟩ := step_ir_record_cfg ht
  exact ⟨⟨t, ht, hcfg⟩, rfl⟩

/-! ### The record (R144) -/

theorem drField_toNat (w : Word) : (drField w).toBits.toNat = w.toNat / 512 % 8 := by
  simp [drField, Nat.shiftRight_eq_div_pow]

theorem sr1Field_toNat (w : Word) : (sr1Field w).toBits.toNat = w.toNat / 64 % 8 := by
  simp [sr1Field, Nat.shiftRight_eq_div_pow]

theorem sr2Field_toNat (w : Word) : (sr2Field w).toBits.toNat = w.toNat % 8 := by
  simp [sr2Field]

/-- Settles O12: every step leaves the record decode latched, and each field of it is that of the fetched word. -/
theorem everyStepReturnsItsRecord : Obligations.EveryStepReturnsItsRecord := by
  unfold Obligations.EveryStepReturnsItsRecord
  intro s
  obtain ⟨t, ht⟩ := step_answers s
  obtain ⟨hir, hrecord, -⟩ := step_ir_record_cfg ht
  exact ⟨t, _, ht, hrecord, hir, rfl, rfl, opcodeOf_toNat _, drField_toNat _, sr1Field_toNat _, sr2Field_toNat _, rfl, rfl,
    rfl, rfl, rfl, rfl⟩

/-! ### The flags (R143) -/

/-- The flags exec reports. -/
def execFlags : Instr → Classification
  | .jsr _ | .jsrr _ _ | .trap _ => Classification.ofCall
  | .ret _ => Classification.ofReturn
  | .jmp _ base => if base = .r7 then Classification.ofReturn else Classification.none
  | _ => Classification.none

theorem exec_flags {i : Instr} {s t : State} (h : exec i s = .next t) : t.flags = execFlags i := by
  suffices hnext : ∃ u, exec i s = .next u ∧ u.flags = execFlags i by
    obtain ⟨u, hu, hflags⟩ := hnext
    cases h.symm.trans hu
    exact hflags
  cases i with
  | addReg | addImm | andReg | andImm | not | lea => exact ⟨_, s.writeResult_eq _ _, rfl⟩
  | ld | ldr => exact ⟨_, s.loadFrom_eq _ _, rfl⟩
  | ldi dr offset9 => exact ⟨_, (exec_ldi dr offset9 s).trans (State.loadFrom_eq _ _ _), rfl⟩
  | st | str => exact ⟨_, s.storeTo_eq _ _, rfl⟩
  | sti sr offset9 => exact ⟨_, (exec_sti sr offset9 s).trans (State.storeTo_eq _ _ _), rfl⟩
  | br nzp offset9 =>
    obtain ⟨t, ht, -, hflags, -⟩ := exec_br_outcome nzp offset9 s
    exact ⟨t, ht, hflags⟩
  | jmp | ret => exact ⟨_, s.jumpThrough_eq _, rfl⟩
  | jsr offset11 => exact ⟨_, exec_jsr offset11 s, rfl⟩
  | jsrr ignored base => exact ⟨_, exec_jsrr ignored base s, rfl⟩
  | trap trapvect8 => exact ⟨_, exec_trap trapvect8 s, rfl⟩
  | rti =>
    cases hc : rtiAllowed s with
    | true => exact ⟨_, exec_rti_allowed hc, rfl⟩
    | false =>
      obtain ⟨t, ht, ⟨-, hflags, -⟩, -⟩ := exec_rti_violates hc
      exact ⟨t, ht, hflags⟩
  | reserved payload => exact ⟨_, exec_reserved payload s, rfl⟩

/-- Only instructions that complete report a flag (R143). -/
theorem execFlags_of_execStatus_ne_ok {i : Instr} {s : State} (h : execStatus i s ≠ .ok) :
    execFlags i = Classification.none := by
  cases i with
  | rti | reserved => rfl
  | _ => exact absurd rfl h

theorem execFlags_subroutineEntry_iff (i : Instr) :
    (execFlags i).subroutineEntry = true ↔
      (∃ offset11, i = .jsr offset11) ∨ (∃ ignored base, i = .jsrr ignored base) ∨ ∃ trapvect8, i = .trap trapvect8 := by
  cases i with
  | jmp ignored base => by_cases hbase : base = .r7 <;> simp [execFlags, hbase, Classification.ofReturn, Classification.none]
  | _ => simp [execFlags, Classification.ofCall, Classification.ofReturn, Classification.none]

/-- A JMP through R7 would report a return too, but no word is read as one. -/
theorem execFlags_subroutineReturn_iff {i : Instr} (hi : i.wellFormed = true) :
    (execFlags i).subroutineReturn = true ↔ ∃ ignored, i = .ret ignored := by
  cases i with
  | jmp ignored base =>
    have hbase : base ≠ .r7 := bne_iff_ne.mp hi
    simp [execFlags, hbase, Classification.none]
  | _ => simp [execFlags, Classification.ofCall, Classification.ofReturn, Classification.none]

/-- Settles O13: a rejected word reports no flag, an accepted one the flags of its instruction. -/
theorem everyStepReportsItsFlags : Obligations.EveryStepReportsItsFlags := by
  unfold Obligations.EveryStepReportsItsFlags
  intro s
  obtain ⟨t, ht⟩ := step_answers s
  refine ⟨t, ht, ?_⟩
  obtain ⟨why, hw, hfail⟩ | ⟨i, hw, hexec⟩ := step_cases ht
  · cases State.decodeFailure_next hfail
    simp [hw, Classification.none]
  · simp only [hw, exec_flags hexec, Decoded.valid.injEq]
    exact ⟨execFlags_subroutineEntry_iff i, execFlags_subroutineReturn_iff (wellFormed_of_decode hw)⟩

/-! ### The PSR -/

/-- Who writes the PSR in a step: a result instruction the codes, a completed RTI the word last read, and nothing else. -/
theorem step_psr {s t : State} (h : step s = .next t) :
    t.psr = s.psr ∨ (∃ v, CodesOf v s t) ∨
      decode (s.loadValue s.pc) = .valid .rti ∧ t.status = .ok ∧ t.psr = t.mdr := by
  obtain ⟨why, -, hfail⟩ | ⟨i, hw, hexec⟩ := step_cases h
  · cases State.decodeFailure_next hfail
    exact .inl s.beginStep_psr
  cases hi : resultReg i with
  | some dr =>
    obtain ⟨v, u, hu, hres⟩ := exec_producesResult hi s.beginStep
    cases hexec.symm.trans hu
    exact .inr (.inl ⟨_, by simpa [CodesOf] using hres.codesOf_reg⟩)
  | none =>
    by_cases hrti : i = .rti
    · subst hrti
      cases hc : rtiAllowed s.beginStep with
      | true =>
        obtain ⟨u, hu, hstatus, -, hpsr, -, -, -, -, -, hmdr, -⟩ := exec_rti_pops hc
        cases hexec.symm.trans hu
        exact .inr (.inr ⟨hw, hstatus, hpsr.trans hmdr.symm⟩)
      | false =>
        obtain ⟨u, hu, ⟨-, -, -, hpsr, -⟩, -⟩ := exec_rti_violates hc
        cases hexec.symm.trans hu
        exact .inl (hpsr.trans s.beginStep_psr)
    · obtain ⟨u, hu, -, hpsr⟩ := exec_psr_kept hi hrti s.beginStep
      cases hexec.symm.trans hu
      exact .inl (hpsr.trans s.beginStep_psr)

/-- The three bits that `CodesOf` names are those of setcc. -/
theorem CodesOf.cc_eq {v : Word} {s t : State} (h : CodesOf v s t) : t.cc = conditionCodes v := by
  obtain ⟨hn, hz, hp, -⟩ := h
  obtain ⟨hn', hz', hp'⟩ := conditionCodes_getLsbD v
  refine BitVec.eq_of_getLsbD_eq fun k hk => ?_
  rw [State.cc, BitVec.getLsbD_extractLsb', decide_eq_true hk, Bool.true_and, Nat.zero_add]
  obtain rfl | rfl | rfl : k = 0 ∨ k = 1 ∨ k = 2 := by omega
  · rw [hp, hp']
  · rw [hz, hz']
  · rw [hn, hn']

theorem CodesOf.mode_eq {v : Word} {s t : State} (h : CodesOf v s t) : t.mode = s.mode := by
  obtain ⟨-, -, -, hkept⟩ := h
  rw [State.mode, hkept 15 (by decide), State.mode]

/-- Settles O16: without RTI the codes are kept or those of a result. -/
theorem oneHotCodesAreKeptByEveryStepButRti : Obligations.OneHotCodesAreKeptByEveryStepButRti := by
  unfold Obligations.OneHotCodesAreKeptByEveryStepButRti
  intro s t hs hrti h
  obtain hpsr | ⟨v, hcodes⟩ | ⟨hw, -⟩ := step_psr h
  · rwa [State.oneHotCodes, State.cc, hpsr]
  · rw [State.oneHotCodes, hcodes.cc_eq]
    exact conditionCodes_oneHot v
  · exact absurd hw hrti

/-- Settles O17: the two other ways a step writes the PSR keep bit 15. -/
theorem onlyRtiChangesTheMode : Obligations.OnlyRtiChangesTheMode := by
  unfold Obligations.OnlyRtiChangesTheMode
  intro s t h hmode
  obtain hpsr | ⟨v, hcodes⟩ | ⟨hw, hstatus, hpsr⟩ := step_psr h
  · exact absurd (by rw [State.mode, hpsr, State.mode]) hmode
  · exact absurd hcodes.mode_eq hmode
  · exact ⟨(decode_eq_valid_iff_eq_encode rfl _).mp hw, hstatus, hpsr, hpsr ▸ t.mode_eq_user_iff⟩

/-- Settles O18: by O17 a step that changes the mode is a completed RTI, which PsrMode denies to user mode. -/
theorem userModeIsNeverLeftUnderPsrMode : Obligations.UserModeIsNeverLeftUnderPsrMode := by
  unfold Obligations.UserModeIsNeverLeftUnderPsrMode
  intro s t hc huser h
  by_contra hleft
  obtain ⟨hw, hstatus, -⟩ := onlyRtiChangesTheMode s t h (fun heq => hleft (heq.trans huser))
  have hdenied : rtiAllowed s.beginStep = false := by
    simpa [rtiAllowed, hc] using s.mode_eq_user_iff.mp huser
  have hexec : step s = exec .rti s.beginStep :=
    step_of_valid (by rw [hw]; exact (decode_eq_valid_iff_eq_encode rfl _).mpr rfl)
  obtain ⟨u, hu, ⟨hviolation, -⟩, -⟩ := exec_rti_violates hdenied
  cases h.symm.trans (hexec.trans hu)
  cases hviolation.symm.trans hstatus

/-! ### A decode failure again -/

/-- The two causes of O8, read back from the status (R250). -/
theorem step_decodeFailure_cause {s t : State} (h : step s = .next t)
    (ht : t.status = .decodeInvalid ∨ t.status = .reservedOpcode) :
    (t.status = .decodeInvalid ∧ ∃ why, decode (s.loadValue s.pc) = .invalid why) ∨
      (t.status = .reservedOpcode ∧ opcodeOf (s.loadValue s.pc) = .reserved) := by
  obtain ⟨u, hu, hinvalid, hreserved, -⟩ := stepAlwaysAnswersAndFaultsOnlyForItsCause s
  cases h.symm.trans hu
  exact ht.imp (fun ht => ⟨ht, hinvalid.mp ht⟩) (fun ht => ⟨ht, hreserved.mp ht⟩)

/-- Settles O9: the failed step restores the PC and keeps memory and the parameters, so the next step fetches the same word and
fails for the same cause. -/
theorem decodeFailureRepeats : Obligations.DecodeFailureRepeats := by
  unfold Obligations.DecodeFailureRepeats
  intro s t h ht hd
  have hcause := step_decodeFailure_cause h ht
  obtain ⟨t', ht', ⟨-, -, -, -, hmem, hcfg⟩, hpc, -⟩ := decodeFailureIsPrecise s t.status hcause
  cases h.symm.trans ht'
  have hword : t.loadValue t.pc = s.loadValue s.pc := by
    rw [hpc, t.loadValue_array ((State.isDevice_congr hcfg s.pc).trans hd), s.loadValue_array hd, hmem]
  rw [← hword] at hcause
  obtain ⟨u, hu, ⟨hstatus, -⟩, hpc', -⟩ := decodeFailureIsPrecise t t.status hcause
  exact ⟨u, hu, hstatus, hpc'.trans hpc⟩

end Sys2Proof.Machine
end

section
/-! The invariant: its part about memory and the device port through every access, then through exec, the step and the host. -/

namespace Sys2Proof.Machine

/-! ### Memory and the device port -/

/-- The part of the invariant that accesses can affect. -/
structure State.StorageInv (s : State) : Prop where
  memory : s.mem.wf
  port : ∀ e ∈ s.deviceLog, s.cfg.ioMode = .device ∧ eventAddress e ∈ s.cfg.ioAddrs
  draws : s.draws = (s.deviceLog.filter isReadEvent).length

theorem State.Inv.storageInv {s : State} (h : s.Inv) : s.StorageInv := ⟨h.memory, h.port, h.draws⟩

theorem State.isDevice_iff (s : State) (a : Word) : s.isDevice a = true ↔ s.cfg.ioMode = .device ∧ a ∈ s.cfg.ioAddrs := by
  simp [State.isDevice]

namespace State.StorageInv

variable {s : State}

/-- It is about four fields alone, which the register and bus transfers leave as they are. -/
theorem congr {t : State} (h : s.StorageInv) (hm : t.mem = s.mem) (hc : t.cfg = s.cfg) (hl : t.deviceLog = s.deviceLog)
    (hd : t.draws = s.draws) : t.StorageInv where
  memory := hm ▸ h.memory
  port := hc ▸ hl ▸ h.port
  draws := hl ▸ hd ▸ h.draws

/-- A device read adds its one transaction and one draw (R66). -/
theorem memRead (h : s.StorageInv) (a : Word) : (s.memRead a).StorageInv := by
  cases ha : s.isDevice a with
  | false => exact h.congr (by simp) (by simp) (by simp [ha]) (by simp [ha])
  | true =>
    refine ⟨by simpa using h.memory, ?_, by simp [ha, isReadEvent, List.filter_cons, h.draws]⟩
    have hport := (s.isDevice_iff a).mp ha
    simpa [ha, eventAddress, hport] using h.port

/-- A store writes its cell in canonical form or adds its one transaction (R66). -/
theorem memWrite (h : s.StorageInv) (a v : Word) : (s.memWrite a v).StorageInv := by
  cases ha : s.isDevice a with
  | false =>
    exact ⟨by simpa [ha] using Memory.write_wf a v h.memory, by simpa [ha] using h.port, by simpa [ha] using h.draws⟩
  | true =>
    refine ⟨by simpa [ha] using h.memory, ?_, by simp [ha, isReadEvent, h.draws]⟩
    have hport := (s.isDevice_iff a).mp ha
    simpa [ha, eventAddress, hport] using h.port

theorem beginStep (h : s.StorageInv) : s.beginStep.StorageInv :=
  (h.memRead s.pc).congr (by simp) (by simp) (by simp) (by simp)

theorem popFrame (h : s.StorageInv) (w0 : Word) : (s.popFrame w0).StorageInv := by
  rw [State.popFrame_eq]
  exact (h.memRead (s.reg .r6 + 1)).congr rfl rfl rfl rfl

theorem writeResult (h : s.StorageInv) (dr : Reg) (v : Word) : ∃ t, s.writeResult dr v = .next t ∧ t.StorageInv :=
  ⟨_, s.writeResult_eq dr v, h.congr rfl rfl rfl rfl⟩

theorem loadFrom (h : s.StorageInv) (dr : Reg) (ea : Word) : ∃ t, s.loadFrom dr ea = .next t ∧ t.StorageInv :=
  ⟨_, s.loadFrom_eq dr ea, (h.memRead ea).congr rfl rfl rfl rfl⟩

theorem storeTo (h : s.StorageInv) (sr : Reg) (ea : Word) : ∃ t, s.storeTo sr ea = .next t ∧ t.StorageInv :=
  ⟨_, s.storeTo_eq sr ea, (h.memWrite ea (s.reg sr)).congr rfl rfl rfl rfl⟩

theorem rti (h : s.StorageInv) : ∃ t, Machine.exec .rti s = .next t ∧ t.StorageInv := by
  have hread : (s.memRead (s.reg .r6)).StorageInv := h.memRead (s.reg .r6)
  cases hcheck : rtiAllowed s with
  | true => exact ⟨_, exec_rti_allowed hcheck, (hread.popFrame (s.loadValue (s.reg .r6))).congr rfl rfl rfl rfl⟩
  | false =>
    obtain ⟨hc, hbit⟩ | ⟨hc, hbit⟩ := (rtiAllowed_eq_not_iff s true).mp hcheck
    · exact ⟨_, exec_rti_stackWord_violation hc hbit, hread.congr rfl rfl rfl rfl⟩
    · exact ⟨_, exec_rti_psrMode_violation hc hbit, h.congr rfl rfl rfl rfl⟩

/-- The accesses of an instruction are reads and stores, and no more than two. -/
theorem exec (h : s.StorageInv) (i : Instr) : ∃ t, Machine.exec i s = .next t ∧ t.StorageInv := by
  cases i with
  | addReg | addImm | andReg | andImm | not | lea => exact h.writeResult _ _
  | ld | ldr => exact h.loadFrom _ _
  | ldi dr offset9 =>
    rw [exec_ldi]
    exact (h.memRead _).loadFrom _ _
  | st | str => exact h.storeTo _ _
  | sti sr offset9 =>
    rw [exec_sti]
    exact (h.memRead _).storeTo _ _
  | br nzp offset9 =>
    cases hb : s.branchTaken nzp with
    | true => exact ⟨_, exec_br_taken hb offset9, h.congr rfl rfl rfl rfl⟩
    | false => exact ⟨_, exec_br_not_taken hb offset9, h.congr rfl rfl rfl rfl⟩
  | jmp | ret => exact ⟨_, s.jumpThrough_eq _, h.congr rfl rfl rfl rfl⟩
  | jsr offset11 => exact ⟨_, exec_jsr offset11 s, h.congr rfl rfl rfl rfl⟩
  | jsrr ignored base => exact ⟨_, exec_jsrr ignored base s, h.congr rfl rfl rfl rfl⟩
  | trap trapvect8 =>
    have hlink : s.link.StorageInv := h.congr rfl rfl rfl rfl
    exact ⟨_, exec_trap trapvect8 s, (hlink.memRead (zext16 trapvect8)).congr rfl rfl rfl rfl⟩
  | rti => exact h.rti
  | reserved payload => exact ⟨_, exec_reserved payload s, h.congr rfl rfl rfl rfl⟩

/-- The fetch is one more read, and a decode failure is no access. -/
theorem step {t : State} (h : s.StorageInv) (hstep : Machine.step s = .next t) : t.StorageInv := by
  obtain ⟨why, -, hfail⟩ | ⟨i, -, hexec⟩ := step_cases hstep
  · cases State.decodeFailure_next hfail
    exact h.beginStep.congr rfl rfl rfl rfl
  · obtain ⟨u, hu, hstorage⟩ := h.beginStep.exec i
    cases hexec.symm.trans hu
    exact hstorage

end State.StorageInv

/-! ### The step -/

theorem execFlags_not_both (i : Instr) : ¬((execFlags i).subroutineEntry = true ∧ (execFlags i).subroutineReturn = true) := by
  cases i with
  | jmp ignored base => by_cases hbase : base = .r7 <;> simp [execFlags, hbase, Classification.ofReturn, Classification.none]
  | _ => simp [execFlags, Classification.ofCall, Classification.ofReturn, Classification.none]

/-- A step reports the flags of an instruction that completes, or none (R143, R255). -/
theorem step_flags {s t : State} (h : step s = .next t) :
    t.flags = Classification.none ∨ t.status = .ok ∧ ∃ i, t.flags = execFlags i := by
  obtain ⟨why, -, hfail⟩ | ⟨i, -, hexec⟩ := step_cases h
  · cases State.decodeFailure_next hfail
    exact .inl rfl
  · obtain ⟨u, hu, hstatus⟩ := exec_status i s.beginStep
    cases hexec.symm.trans hu
    by_cases hok : t.status = .ok
    · exact .inr ⟨hok, i, exec_flags hexec⟩
    · exact .inl ((exec_flags hexec).trans (execFlags_of_execStatus_ne_ok (hstatus ▸ hok)))

/-- Settles O50: the storage part by the accesses, the record by what decode latched, the flags by what ends the step. -/
theorem stepKeepsTheInvariant : Obligations.StepKeepsTheInvariant := by
  unfold Obligations.StepKeepsTheInvariant
  intro s t h hstep
  obtain ⟨hmemory, hport, hdraws⟩ := h.storageInv.step hstep
  obtain ⟨hir, hrecord, -⟩ := step_ir_record_cfg hstep
  refine ⟨hmemory, hport, hdraws, fun r hr => ?record, ?flags, fun hfault => ?faultFlags⟩
  case record =>
    cases hrecord.symm.trans hr
    rw [hir]
    rfl
  case flags =>
    obtain hflags | ⟨-, i, hflags⟩ := step_flags hstep
    · simp [hflags, Classification.none]
    · rw [hflags]
      exact execFlags_not_both i
  case faultFlags =>
    obtain hflags | ⟨hok, -⟩ := step_flags hstep
    · exact hflags
    · exact absurd hok hfault

/-! ### Reset and the host operations -/

/-- Reset clears memory and the outputs; the device port's record stays with the parameters it was made under (log 16). -/
theorem hostReset_inv {s : State} (h : s.StorageInv) : (hostReset s).Inv where
  memory := Memory.wf_nil
  port := h.port
  draws := h.draws
  record := by simp [State.reset]
  flags := by simp [State.reset, Classification.none]
  faultFlags := fun _ => rfl

/-- Settles O51: the model's first state is its own reset, with nothing yet on the device port. -/
theorem resetMeetsTheInvariant : Obligations.ResetMeetsTheInvariant :=
  hostReset_inv (s := State.reset) ⟨Memory.wf_nil, nofun, rfl⟩

/-- Settles O52: only mem_write touches a field that the invariant speaks of, besides reset. -/
theorem hostOperationsKeepTheInvariant : Obligations.HostOperationsKeepTheInvariant := by
  unfold Obligations.HostOperationsKeepTheInvariant
  intro s h
  refine ⟨hostReset_inv h.storageInv, fun v => ?setPc, fun a v => ?memWrite, fun i v t ht => ?setRegister⟩
  case setPc => exact ⟨h.memory, h.port, h.draws, h.record, h.flags, h.faultFlags⟩
  case memWrite => exact ⟨Memory.write_wf a v h.memory, h.port, h.draws, h.record, h.flags, h.faultFlags⟩
  case setRegister =>
    obtain ⟨r, -, rfl⟩ := hostSetRegister_next ht
    exact ⟨h.memory, h.port, h.draws, h.record, h.flags, h.faultFlags⟩

end Sys2Proof.Machine
end

section
/-! What ir, mar, mdr, the bus and the last step's outputs hold when a step begins (R35). -/

namespace Sys2Proof.Machine

/-! ### The status and the flags reach no operation -/

theorem State.report_report (s : State) (e e' : Status) (f f' : Classification) :
    (s.report e f).report e' f' = s.report e' f' := rfl

theorem State.memRead_report (s : State) (e : Status) (f : Classification) (a : Word) :
    (s.report e f).memRead a = (s.memRead a).report e f := by
  rw [State.memRead_eq, State.memRead_eq]
  rfl

theorem State.loadFrom_report (s : State) (e : Status) (f : Classification) (dr : Reg) (ea : Word) :
    (s.report e f).loadFrom dr ea = s.loadFrom dr ea := by
  rw [State.loadFrom_eq, State.memRead_report, State.loadFrom_eq]
  rfl

theorem State.storeTo_report (s : State) (e : Status) (f : Classification) (sr : Reg) (ea : Word) :
    (s.report e f).storeTo sr ea = s.storeTo sr ea := by
  rw [State.storeTo_eq, State.memWrite_eq, State.storeTo_eq, State.memWrite_eq]
  rfl

theorem State.popFrame_report (s : State) (e : Status) (f : Classification) (w0 : Word) :
    (s.report e f).popFrame w0 = (s.popFrame w0).report e f := by
  rw [State.popFrame_eq, State.popFrame_eq, State.memRead_eq, State.memRead_eq]
  rfl

theorem exec_rti_report (s : State) (e : Status) (f : Classification) : exec .rti (s.report e f) = exec .rti s := by
  cases hcheck : rtiAllowed s with
  | true =>
    rw [exec_rti_allowed (s := s.report e f) hcheck, exec_rti_allowed hcheck, State.memRead_report, State.popFrame_report]
    rfl
  | false =>
    obtain ⟨hc, hbit⟩ | ⟨hc, hbit⟩ := (rtiAllowed_eq_not_iff s true).mp hcheck
    · rw [exec_rti_stackWord_violation (s := s.report e f) hc hbit, exec_rti_stackWord_violation hc hbit,
        State.memRead_report]
      rfl
    · rw [exec_rti_psrMode_violation (s := s.report e f) hc hbit, exec_rti_psrMode_violation hc hbit]
      rfl

/-- The outputs of the last step reach no meaning, and every meaning replaces them. -/
theorem exec_report (i : Instr) (s : State) (e : Status) (f : Classification) : exec i (s.report e f) = exec i s := by
  cases i with
  | addReg | addImm | andReg | andImm | not | lea => rfl
  | ld | ldr => exact s.loadFrom_report e f _ _
  | ldi dr offset9 =>
    rw [exec_ldi, State.memRead_report, State.loadFrom_report, exec_ldi]
    rfl
  | st | str => exact s.storeTo_report e f _ _
  | sti sr offset9 =>
    rw [exec_sti, State.memRead_report, State.storeTo_report, exec_sti]
    rfl
  | br nzp offset9 =>
    cases hb : s.branchTaken nzp with
    | true =>
      rw [exec_br_taken (s := s.report e f) hb, exec_br_taken hb]
      rfl
    | false =>
      rw [exec_br_not_taken (s := s.report e f) hb, exec_br_not_taken hb]
      rfl
  | jmp | ret | jsr | jsrr | reserved => rfl
  | trap trapvect8 =>
    have hlink : (s.report e f).link = s.link.report e f := rfl
    rw [exec_trap, exec_trap, hlink, State.memRead_report]
    rfl
  | rti => exact exec_rti_report s e f

/-! ### Fetch and decode replace the others -/

/-- ir, mar, mdr, the bus and the record after fetch and decode come from the PC and the word there alone. -/
theorem State.beginStep_withHidden (s : State) (ir mar mdr bus : Word) (status : Status) (record : Option DecodedRecord)
    (flags : Classification) :
    State.beginStep { s with
      ir := ir, mar := mar, mdr := mdr, bus := bus, status := status, record := record, flags := flags } =
      s.beginStep.report status flags := by
  rw [State.beginStep, State.fetch_eq, State.memRead_eq, State.beginStep, State.fetch_eq, State.memRead_eq]
  rfl

/-- Settles O11: after fetch and decode the two states differ in the status and the flags alone, which the end of the step
replaces. -/
theorem hiddenRegistersCannotMatter : Obligations.HiddenRegistersCannotMatter := by
  unfold Obligations.HiddenRegistersCannotMatter
  intro s ir mar mdr bus status record flags
  unfold step
  rw [State.beginStep_withHidden, State.report_ir]
  cases decode s.beginStep.ir with
  | valid i => exact exec_report i s.beginStep status flags
  | invalid why => rfl

end Sys2Proof.Machine
end

section
/-! The memory interface, reset and the host operations. -/

namespace Sys2Proof.Machine

/-! ### The memory interface -/

theorem State.memoryEnable_read_array {s : State} (h : s.isDevice s.mar = false) : s.memoryEnable false = s.arrayRead := by
  simp [State.memoryEnable, h]

theorem State.memoryEnable_write_array {s : State} (h : s.isDevice s.mar = false) : s.memoryEnable true = s.arrayWrite := by
  simp [State.memoryEnable, h]

/-- Settles O47. -/
theorem memoryEnableReadsOrWritesTheCell : Obligations.MemoryEnableReadsOrWritesTheCell := by
  unfold Obligations.MemoryEnableReadsOrWritesTheCell
  intro s h
  rw [State.memoryEnable_read_array h, State.memoryEnable_write_array h]
  exact ⟨rfl, by simp, fun b hb => by simp [hb], rfl⟩

/-- Settles O48: the value read is `State.loadValue`, at a device address the platform's. -/
theorem deviceAccessesGoToThePort : Obligations.DeviceAccessesGoToThePort := by
  unfold Obligations.DeviceAccessesGoToThePort
  intro s a v hmode haddr
  have hd : s.isDevice a = true := (s.isDevice_iff a).mpr ⟨hmode, haddr⟩
  refine ⟨⟨s.loadValue a, s.memRead_bus a, s.memRead_mdr a, ?_, ?_, s.memRead_mem a⟩, ?_, ?_⟩
  all_goals simp [hd]

/-! ### Reset and the host operations -/

/-- Settles O53: every value is written out in `State.reset`. -/
theorem resetValues : Obligations.ResetValues := by
  unfold Obligations.ResetValues
  refine ⟨fun s => ⟨fun r => ?registers, rfl, rfl, rfl, rfl, rfl, rfl, fun a => rfl, ?mode, rfl,
    State.fetch_mar _⟩, rfl, rfl, rfl, rfl, rfl⟩
  case registers => cases r <;> rfl
  case mode => simp [State.mode, State.reset]

/-- Settles O54: below 8 an index names a register, and from 8 on none. -/
theorem hostRegisterAccess : Obligations.HostRegisterAccess := by
  unfold Obligations.HostRegisterAccess
  refine ⟨fun s i v hi => ?named, fun s i v hi => ?refused, fun s v => ⟨rfl, rfl⟩⟩
  case named =>
    obtain ⟨r, hr, hindex⟩ := hostReg_eq_some hi
    obtain ⟨t, ht, hreg, hothers, honly⟩ := hostSetRegister_of_hostReg hr v s
    exact ⟨r, t, hindex, by simp [hostGetRegister, hr], ht, hreg, hothers, honly⟩
  case refused => simp [hostGetRegister, hostSetRegister, hostReg_eq_none hi]

/-- Settles O55. -/
theorem hostMemoryAccess : Obligations.HostMemoryAccess := by
  unfold Obligations.HostMemoryAccess
  intro s a b v
  exact ⟨rfl, Memory.read_write s.mem a b v, rfl⟩

end Sys2Proof.Machine
end
